-- ==== Sys2Proof/Word.lean ====
section
/-! DEFINITION. The words and the numberings of the DT-96 (spec/00_scope.md, "Numbering and
quantities"): what the part counts, stamps and numbers, and nothing that computes a result. -/

namespace Sys2Proof

/-- One byte on any port. -/
abbrev Byte := BitVec 8

/-- A 16-bit field: a stamp, or a signed value read by its two's complement. -/
abbrev Half := BitVec 16

/-- Chassis time: a 32-bit count of sample periods that wraps (00_scope, R151). -/
abbrev Time := BitVec 32

/-- A full frame number, chassis time ÷ 8: 0 to 2^29 − 1 (R87, R121). -/
abbrev Frame := BitVec 29

/-- Slots 0 to 95. -/
abbrev Slot := Fin 96

/-- Sensing stations 0 to 15. -/
abbrev Station := Fin 16

/-- Targets 0 to 111: the slots, then the stations at 96 + k. -/
abbrev Target := Fin 112

/-- Source record numbers 0 to 127. -/
abbrev RecordNo := Fin 128

/-- Profile cache slots 0 to 31. -/
abbrev CacheNo := Fin 32

/-- Profile ids 0 to 511. -/
abbrev ProfileId := Fin 512

/-- Drive tags 0 to 7. -/
abbrev Tag := Fin 8

/-- Coupling delays 0 to 15 sample periods. -/
abbrev Delay := Fin 16

/-- The target of a slot is the slot's own number. -/
def slotTarget (s : Slot) : Target := ⟨s.val, by omega⟩

/-- Target 96 + k is station k. -/
def stationTarget (k : Station) : Target := ⟨96 + k.val, by omega⟩

/-- A slot's position in its row, which is the number of its window (slot = row × 12 + position). -/
def position (s : Slot) : Nat := s.val % 12

end Sys2Proof
end

