-- ==== Sys2Proof/Config.lean ====
section
/-! DEFINITION. What the spec leaves open and no command computes with: byte encodings and sizes
in the management responses. Each is a constant with no body, so nothing can be proved of its value.
-/

namespace Sys2Proof.Config

/-- The bytes that carry a lone yes or no in a management response (the late and provisional flags,
frozen, the active indication, clear-requested). R176 gives neither their number nor their values.
Free value, assumption 3. -/
opaque yesNoBytes : Bool → List (BitVec 8)

/-- How many bytes the part code has in IDENTIFY's response before its last. R170 gives its value,
96, and R176 no size for it. Free value, assumption 3. -/
opaque partCodeBytesBeforeLast : Nat

end Sys2Proof.Config
end

