-- ==== Sys2Proof/Syntax.lean ====
section
/-! DEFINITION. The commands of the DT-96: one constructor of `Instr` for each row of
spec/opcode_table.json, with the fields that the row's rule names. A drive message and a sensor
word stand here as their named fields (the bytes are read in Sys2Proof/Decode.lean); a management
command carries its frame's payload as R176 cuts it into fields, each field at its width on the
wire, so that an argument out of range is a value the command judges, as its rule says. -/

namespace Sys2Proof

/-- The drive state a STATUS carries (R156, R174). -/
inductive DriveState where
  | active
  | idle
  | parked
  deriving DecidableEq, Repr

/-- A step of a frame boundary that a schedule may place before the boundary's swap
(R61, R63, R100: the swap and each station's cycle, and the grants of the arbiter between them,
may fall in either order). That no grant to the Management Port is among them is the model's choice
(assumption 7). -/
inductive BoundaryAct where
  /-- a station's close and the beginning of its evaluation (R72, R131) -/
  | cycle (k : Station)
  /-- one grant to the Prediction Engine (R65) -/
  | predictionRead
  /-- one grant to the Adaptation Engine (R66) -/
  | gainUpdate
  deriving DecidableEq, Repr

/-- The payload of a management frame: the fields R176 cuts it into, or a payload whose length is
not one the command accepts, or fewer bytes than its length byte says (R165, second test). -/
inductive Payload (α : Type) where
  | fields (a : α)
  | wrongLength
  deriving DecidableEq, Repr

/-- The fields of a NOTICE (R9, R174). -/
structure NoticeFields where
  tag : Tag
  profile : ProfileId
  scale : Half
  start : Half
  limit : Option Nat
  deriving DecidableEq, Repr

/-- The fields of an AMEND: at least one of a new start stamp and a new scale (R14, R15). -/
structure AmendFields where
  tag : Tag
  start : Option Half
  scale : Option Half
  deriving DecidableEq, Repr

/-- The fields of a STATUS (R156). -/
structure StatusFields where
  drive : DriveState
  shock : Bool
  residual : Half
  frameTag : Tag
  deriving DecidableEq, Repr

/-- A setting value on the wire: four bytes (R176). -/
structure SettingValue where
  choice : Byte
  station : Byte
  value : Half
  deriving DecidableEq, Repr

/-- The record and the setting that SETTING-WRITE and SETTING-READ name (R167, R176). -/
structure SettingAddr where
  record : Byte
  name : Byte
  deriving DecidableEq, Repr

/-- A coupling entry as written by LIST-WRITE: its delay may be 0 to 255 (R55, R176). -/
structure RawEntry where
  target : Byte
  gain : Half
  delay : Byte
  deriving DecidableEq, Repr

/-- The arguments of LIST-WRITE (R55). -/
structure ListWriteArgs where
  source : Byte
  entries : List RawEntry
  deriving DecidableEq, Repr

/-- The arguments of LIST-READ (R58). -/
structure ListReadArgs where
  bank : Byte
  source : Byte
  deriving DecidableEq, Repr

/-- The arguments of SOURCE-QUERY (R27, R176): form 0 by number, form 1 by slot and tag. -/
structure SourceQueryArgs where
  form : Byte
  number : Byte
  slot : Byte
  tag : Byte
  deriving DecidableEq, Repr

/-- The arguments of SOURCE-LIST (R28, R176): an optional slot is a choice byte and the slot. -/
structure SourceListArgs where
  first : Byte
  slotChoice : Byte
  slot : Byte
  deriving DecidableEq, Repr

/-- A number and a mode: the arguments of FORCE-PRESENCE and FORCE-LOCK (R160, R129). -/
structure ForceArgs where
  index : Byte
  mode : Byte
  deriving DecidableEq, Repr

/-- The commands and events of the DT-96: one constructor per row of spec/opcode_table.json. -/
inductive Instr where
  | chassisTimeAdvance
  | frameBoundary (beforeSwap : List BoundaryAct)
  | settleEnd (t : Target)
  | divergenceHoldEnd (t : Target)
  | shockHoldEnd (k : Station)
  | holdExpiry (slot : Slot)
  | recordStartReached (r : RecordNo)
  | recordEndReached (r : RecordNo)
  | retirement (r : RecordNo)
  | notice (slot : Slot) (m : NoticeFields)
  | amend (slot : Slot) (m : AmendFields)
  | withdraw (slot : Slot) (tag : Tag)
  | close (slot : Slot) (tag : Tag) (stamp : Half)
  | status (slot : Slot) (m : StatusFields)
  | malformedMessage (slot : Slot)
  | upstreamPhaseEnd (slot : Slot)
  | predictionListRead
  | evaluationEnd (t : Target)
  | feed (slot : Slot)
  | gainUpdate
  | channelWord (tag : BitVec 6) (value : Half)
  | sweepEnd (stamp : Half)
  | discardedWord
  | fetchStart
  | fetchCompleteGood (samples : List Half)
  | fetchCompleteBad
  | identify (p : Payload Unit)
  | readFlags (p : Payload Unit)
  | setAlertMask (p : Payload Half)
  | settingWrite (p : Payload (SettingAddr × SettingValue))
  | settingRead (p : Payload SettingAddr)
  | listWrite (p : Payload ListWriteArgs)
  | listWriteGrant
  | listRead (p : Payload ListReadArgs)
  | listReadGrant
  | capture (p : Payload Unit)
  | captureEmptyGrant
  | captureCopyGrant
  | swapRequest (p : Payload Unit)
  | swapCancel (p : Payload Unit)
  | sourceQuery (p : Payload SourceQueryArgs)
  | sourceList (p : Payload SourceListArgs)
  | sourceListGrant
  | targetRead (p : Payload Byte)
  | stationRead (p : Payload Byte)
  | cacheRead (p : Payload Unit)
  | preload (p : Payload Half)
  | retry (p : Payload Half)
  | drop (p : Payload Half)
  | lend (p : Payload Unit)
  | reclaim (p : Payload Unit)
  | forcePresence (p : Payload ForceArgs)
  | forceLock (p : Payload ForceArgs)
  | suppressClear (p : Payload Byte)
  | holdShorten (p : Payload Byte)
  | restartWarm (p : Payload Unit)
  | restartCold (p : Payload Unit)
  | unknownCommand (code : Byte)
  | warmLine
  | resetLine
  | powerUp
  | coldResetEnd
  | transactionStart
  deriving DecidableEq, Repr

end Sys2Proof
end

