-- ==== Sys2Proof/Machine/Types.lean ====
section
/-! DEFINITION. The pieces the state of the DT-96 is made of, block by block: the records, slots,
banks, rings, accounts and responses that the chapters of spec/ name. Signed quantities are
integers in the units of 00_scope ("Units and number formats"); chassis times, stamps, frame
numbers and the flag words are bit vectors, because the part wraps or masks them. -/

namespace Sys2Proof.Machine

/-! ### The Source Table (01) -/

/-- The states of a source record (R1). -/
inductive RecordState where
  | free
  | pending
  | running
  | tail
  deriving DecidableEq, Repr

/-- A source record (R1); its number is its place in the table. -/
structure SourceRecord where
  state : RecordState
  slot : Slot
  tag : Tag
  profile : ProfileId
  scale : Int
  start : Time
  length : Nat
  limit : Option Nat
  cut : Option Time
  late : Bool
  provisional : Bool
  deriving DecidableEq, Repr

/-- The Source Table: 128 records, and each slot's live count (R1). -/
structure SourceTable where
  records : Vector SourceRecord 128
  liveCount : Vector Nat 96
  deriving DecidableEq, Repr

/-! ### The Profile Cache (02) -/

/-- A cache slot (R33). A FILLED slot's length is the number of its samples. -/
inductive CacheSlot where
  | empty
  | filling (id : ProfileId)
  | filled (id : ProfileId) (samples : List Int) (count : Nat)
  deriving DecidableEq, Repr

/-- The lend states of the profile memory port (R46, R47). -/
inductive PortState where
  | owned
  | lendPending
  | lent
  deriving DecidableEq, Repr

/-- The fetch in flight: its slot, its id, and the memory clock divider it runs at (R32, R38). -/
structure Flight where
  slot : CacheNo
  id : ProfileId
  divider : Nat
  deriving DecidableEq, Repr

/-- The Profile Cache: slots, LRU order from least to most recently used, fetch queue from head to
tail, unusable set, the fetch in flight and the port state (R33 to R37, R47). -/
structure ProfileCache where
  slots : Vector CacheSlot 32
  lru : List CacheNo
  queue : List ProfileId
  unusable : Vector Bool 512
  flight : Option Flight
  port : PortState
  deriving DecidableEq, Repr

/-! ### The Coupling Store (03) -/

/-- The names of the two banks (R52). -/
inductive BankName where
  | a
  | b
  deriving DecidableEq, Repr

/-- A coupling entry (R53). -/
structure Entry where
  target : Target
  gain : Int
  delay : Delay
  deriving DecidableEq, Repr

/-- A bank: 96 coupling lists and a pool count (R53, R54). -/
structure Bank where
  lists : Vector (List Entry) 96
  pool : Nat
  deriving DecidableEq, Repr

/-- The Coupling Store (R52). -/
structure CouplingStore where
  bankA : Bank
  bankB : Bank
  active : BankName
  swapPending : Bool
  deriving DecidableEq, Repr

/-! ### Prediction (04) -/

/-- What an evaluation's snapshot holds of a live record: its fields, and the samples of its
profile if that is resident (R70). -/
structure SnapRecord where
  number : RecordNo
  slot : Slot
  samples : Option (List Int)
  scale : Int
  start : Time
  length : Nat
  endPoint : Time
  deriving DecidableEq, Repr

/-- What a slot evaluation's snapshot holds of one ambient tap's station (R70, R82). -/
structure TapSnap where
  weight : Int
  locked : Bool
  shockRunning : Bool
  y2 : Int
  deriving DecidableEq, Repr

/-- The states of a suppression record (R139). -/
inductive SuppressionState where
  | clear
  | held
  | awaitingClear
  deriving DecidableEq, Repr

/-- What a slot evaluation's snapshot holds beside the records (R70). -/
structure SlotSnap where
  limit : Nat
  taps : List TapSnap
  suppression : SuppressionState
  drive : DriveState
  deriving DecidableEq, Repr

/-- An evaluation's snapshot, taken at its beginning (R70). -/
structure Snapshot where
  records : List SnapRecord
  blanking : Nat
  slotPart : Option SlotSnap
  deriving DecidableEq, Repr

/-- The gain and delay a list read returns (R65). -/
structure Coupling where
  gain : Int
  delay : Delay
  deriving DecidableEq, Repr

/-- One list read that has been granted: the source slot, and the entry or its absence (R65). -/
structure ListRead where
  source : Slot
  entry : Option Coupling
  deriving DecidableEq, Repr

/-- An evaluation in flight: its target and frame, its bank once fixed (R63), its snapshot, the
reads granted and the source slots whose reads still wait, in order (R73). -/
structure Evaluation where
  target : Target
  frame : Frame
  bank : Option BankName
  snap : Snapshot
  done : List ListRead
  waiting : List Slot
  deriving DecidableEq, Repr

/-- A contributor as an evaluation record lists it (R88). -/
structure Contributor where
  number : RecordNo
  source : Slot
  x : Int
  blanked : Bool
  deriving DecidableEq, Repr

/-- An evaluation record (R87). -/
structure EvalRecord where
  frame : Frame
  bank : BankName
  sums : Vector Int 8
  partialFlag : Bool
  suppressed : Bool
  parked : Bool
  overflow : Bool
  contributors : List Contributor
  deriving DecidableEq, Repr

/-- The Prediction Engine: a ring of up to three evaluation records per target, the one written
longest ago first (R91), and the evaluations in flight in ascending order of target (R73). `gap` is
the model's own (assumption 16): the access that the arbiter granted last was a list read of this
engine, which presents its next one after that one has ended (3.5). -/
structure PredictionEngine where
  rings : Vector (List EvalRecord) 112
  evaluations : List Evaluation
  gap : Bool
  deriving DecidableEq, Repr

/-! ### Adaptation (05) -/

/-- The target's adaptation record (R94) but for its steps in flight, which stand in the engine's
one queue. `settleDue` and `holdDue` are the model's own: whether the fall of the count at the
frame boundary being taken is still to come (assumption 5). -/
structure AdaptRecord where
  settle : Nat
  postscaler : Nat
  divergence : Nat
  hold : Nat
  frozen : Bool
  lastResidual : Int
  settleDue : Bool
  holdDue : Bool
  deriving DecidableEq, Repr

/-- A gain update still to be presented to the arbiter; its bank and target are its step's (R105).
-/
structure GainUpdate where
  source : Slot
  up : Bool
  mu : Nat
  gmax : Nat
  deriving DecidableEq, Repr

/-- The moment a step was taken: the chassis time, and the place in the frame (0 the boundary,
1 + w the upstream phase of window w). Steps of one moment queue in order of target (R94). -/
structure Moment where
  time : Time
  place : Nat
  deriving DecidableEq, Repr

/-- A step in flight (R94): its moment, target and bank, its updates not yet granted, its clipped
mark. -/
structure Step where
  moment : Moment
  target : Target
  bank : BankName
  updates : List GainUpdate
  clipped : Bool
  deriving DecidableEq, Repr

/-- The moment whose steps are being taken (the model's own, assumption 12): the steps in flight
that no step of the moment may go before, and the steps taken at it, in ascending order of target. A
step of the moment that is taken later, for a lower target, may still go before one of these (R94).
-/
structure OpenMoment where
  moment : Moment
  before : List Step
  taken : List Step
  deriving DecidableEq, Repr

/-- The Adaptation Engine: a record per target, and the steps in flight, oldest first (R94). The
model's own are `openMoment` (assumption 12), and `gap` (assumption 16): the access that the arbiter
granted last was a gain update of this engine, and another is still to be presented. -/
structure AdaptationEngine where
  records : Vector AdaptRecord 112
  steps : List Step
  openMoment : Option OpenMoment
  gap : Bool
  deriving DecidableEq, Repr

/-! ### Sensing stations (06) -/

/-- A lock state (R128). -/
inductive Lock where
  | locked
  | unlocked
  deriving DecidableEq, Repr

/-- A frame account (R121). -/
structure Account where
  frame : Frame
  taken : Vector Bool 8
  sum : Int
  count : Nat
  missingCounted : Bool
  deriving DecidableEq, Repr

/-- The state of one station: pairing (R119), lock (R128, R129), filter (R127), the accounts of the
older and the newer frame (R121), shock hold (R132), last M (R124). `shockDue` is the model's own,
as `AdaptRecord.settleDue` (assumption 5). -/
structure StationState where
  pendingA : Option Int
  pair : Option (Int × Int)
  detected : Lock
  goodRun : Nat
  badRun : Nat
  force : Option Lock
  y1 : Int
  y2 : Int
  older : Account
  newer : Account
  shockHold : Nat
  shockDue : Bool
  lastM : Int
  deriving DecidableEq, Repr

/-! ### Shock suppression (07) -/

/-- A slot's suppression record (R139). `fallDue` is the model's own, as `AdaptRecord.settleDue`
(assumption 5). -/
structure SuppressionRecord where
  state : SuppressionState
  hold : Nat
  clearRequested : Bool
  fallDue : Bool
  deriving DecidableEq, Repr

/-! ### Row links (08) -/

/-- A presence state (R157). -/
inductive Presence where
  | present
  | absent
  deriving DecidableEq, Repr

/-- The reply codes of a FEED, in the order of their values (R174). -/
inductive Reply where
  | none
  | taken
  | takenLate
  | notPresent
  | tagInUse
  | slotLimit
  | profileBad
  | tooFar
  | stale
  | full
  | busy
  | tooLate
  | unknownTag
  | alreadyEnded
  | notRunning
  deriving DecidableEq, Repr

/-- What the window's message was answered, and whether the window is good (R154, R155). -/
structure Answer where
  good : Bool
  reply : Reply
  tag : Nat
  deriving DecidableEq, Repr

/-- A slot's block as a FEED sends it: eight values and the block flags (R85). -/
structure Block where
  values : Vector Int 8
  absent : Bool
  parked : Bool
  suppressed : Bool
  clipped : Bool
  partialFlag : Bool
  deriving DecidableEq, Repr

/-- The block of the window: its evaluation is in flight, or the block is ready (R71, R75). -/
inductive PendingBlock where
  | evaluating
  | ready (b : Block)
  deriving DecidableEq, Repr

/-- Where a slot's window of the frame stands (R152, R153): in or before its upstream phase, with
the answer to the message taken, if one was; between the end of that phase and its FEED; or over. -/
inductive Window where
  | upstream (m : Option Answer)
  | feedPhase (m : Option Answer) (b : PendingBlock)
  | over
  deriving DecidableEq, Repr

/-- A FEED as it was sent (R161). -/
structure Feed where
  reply : Reply
  tag : Nat
  block : Block
  frameTag : Nat
  deriving DecidableEq, Repr

/-- A slot's side of its row link: presence (R157, R160), the last drive state (R156), the window of
the frame in progress, and the last FEED sent to the slot, as the outside sees it. -/
structure LinkSlot where
  detected : Presence
  goodRun : Nat
  missRun : Nat
  force : Option Presence
  drive : DriveState
  window : Window
  sent : Option Feed
  deriving DecidableEq, Repr

/-- A BEACON as it was sent, the same on all eight row links (R152). -/
structure Beacon where
  frameNumber : Half
  bank : BankName
  deriving DecidableEq, Repr

/-- The row links: the 96 slots, and the last BEACON sent. -/
structure RowLinks where
  slots : Vector LinkSlot 96
  beacon : Option Beacon
  deriving DecidableEq, Repr

/-! ### Settings (R167) -/

/-- The global settings record. -/
structure GlobalSettings where
  blanking : Nat
  theta : Nat
  settle : Nat
  divergenceHold : Nat
  stationLock : Nat
  stationUnlock : Nat
  shockHold : Nat
  presenceLock : Nat
  presenceUnlock : Nat
  divider : Nat
  deriving DecidableEq, Repr

/-- The common part of a target's settings record (R95). -/
structure TargetSettings where
  enabled : Bool
  mu : Nat
  deadband : Nat
  gmax : Nat
  interval : Nat
  deriving DecidableEq, Repr

/-- An ambient tap (R86). -/
structure Tap where
  station : Station
  weight : Int
  deriving DecidableEq, Repr

/-- A slot's suppression mode (R140). -/
inductive SuppressionMode where
  | frame
  | latched
  deriving DecidableEq, Repr

/-- The slot part of a slot's settings record (R86, R140). -/
structure SlotSettings where
  feedLimit : Nat
  tap1 : Option Tap
  tap2 : Option Tap
  mode : SuppressionMode
  shockStation : Option Station
  deriving DecidableEq, Repr

/-- A station's sense (R124). -/
inductive Sense where
  | normal
  | reversed
  deriving DecidableEq, Repr

/-- The station part of a station's settings record (R135). -/
structure StationSettings where
  sense : Sense
  scale : Nat
  threshold : Nat
  coefficient : Nat
  deriving DecidableEq, Repr

/-- The settings table (R167). -/
structure Settings where
  global : GlobalSettings
  targets : Vector TargetSettings 112
  slots : Vector SlotSettings 96
  stations : Vector StationSettings 16
  deriving DecidableEq, Repr

/-! ### The management port (09) -/

/-- The twelve flags, in the order of their table (R168). -/
inductive Flag where
  | noticeRefused
  | noticeLate
  | fetchFail
  | sensorLate
  | swapDone
  | divergence
  | frozen
  | shock
  | presenceChange
  | lockChange
  | clipped
  | lendGranted
  deriving DecidableEq, Repr

/-- The statuses of a response, in the order of their values (R176). -/
inductive Status where
  | ok
  | busy
  | badArgument
  | swapPending
  | notPending
  | poolFull
  | badList
  | notLent
  | alreadyLent
  | inUse
  | profileBad
  | noSuchRecord
  | unknownCommand
  deriving DecidableEq, Repr

/-- The causes of a reset, in the order R170 lists them. -/
inductive ResetCause where
  | powerUp
  | resetLine
  | restartCold
  | restartWarm
  | warmLine
  deriving DecidableEq, Repr

/-- The reasons of BAD-LIST, in the order of R56. -/
inductive ListFault where
  | length
  | range
  | self
  | duplicate
  | order
  deriving DecidableEq, Repr

/-- A live record as SOURCE-QUERY returns it: the record's fields and its E (R27). -/
structure RecordReport where
  number : RecordNo
  record : SourceRecord
  endPoint : Time
  deriving DecidableEq, Repr

/-- One entry of a SOURCE-LIST response (R28). -/
structure SourceEntry where
  number : RecordNo
  state : RecordState
  slot : Slot
  tag : Tag
  profile : ProfileId
  provisional : Bool
  deriving DecidableEq, Repr

/-- A cache slot as CACHE-READ reports it: no samples (R46). -/
inductive CacheSlotReport where
  | empty
  | filling (id : ProfileId)
  | filled (id : ProfileId) (length : Nat) (count : Nat)
  deriving DecidableEq, Repr

/-- What CACHE-READ returns (R46). -/
structure CacheReport where
  time : Time
  slots : Vector CacheSlotReport 32
  lru : List CacheNo
  queue : List ProfileId
  port : PortState
  inFlight : Option ProfileId
  unusable : Vector Bool 512
  deriving DecidableEq, Repr

/-- The payload of a response, as the fields its command's rule names. -/
inductive Body where
  | none
  /-- IDENTIFY (R170): part code, capacities, chassis time, cause -/
  | identity (partCode : Nat) (capacities : List Nat) (time : Time) (cause : ResetCause)
  /-- READ-FLAGS and SET-ALERT-MASK (R168, R169) -/
  | flags (bits : BitVec 12)
  /-- SETTING-WRITE and SETTING-READ (R167) -/
  | setting (v : SettingValue)
  /-- LIST-WRITE (R57): bank, new list length, delays clipped, pool count -/
  | listWritten (bank : BankName) (length clipped pool : Nat)
  /-- BAD-LIST (R56) -/
  | badList (reason : ListFault) (pos : Option Nat)
  /-- LIST-READ (R58) -/
  | list (bank : BankName) (active : Bool) (time : Time) (pool : Nat) (entries : List Entry)
  /-- CAPTURE (R59) -/
  | captured (bank : BankName) (pool : Nat)
  /-- SOURCE-QUERY by number of a FREE record (R27) -/
  | freeRecord (time : Time) (number : RecordNo)
  /-- SOURCE-QUERY of a live record (R27) -/
  | liveRecord (time : Time) (r : RecordReport)
  /-- SOURCE-LIST (R28) -/
  | sources (time : Time) (bank : BankName) (entries : List SourceEntry) (next : Option Nat)
  /-- TARGET-READ (R114) -/
  | target (time : Time) (settle postscaler divergence hold : Nat) (frozen : Bool) (residual : Int)
  /-- STATION-READ (R136) -/
  | station (time : Time) (effective detected : Lock) (force : Option Lock) (lastM y2 : Int)
      (shockHold : Nat) (residual : Int)
  /-- CACHE-READ (R46) -/
  | cache (r : CacheReport)
  /-- LEND (R47) -/
  | port (p : PortState)
  /-- FORCE-PRESENCE (R160) -/
  | presence (effective detected : Presence) (force : Option Presence) (goodRun missRun : Nat)
      (drive : DriveState)
  /-- SUPPRESS-CLEAR and HOLD-SHORTEN of one slot (R145, R146) -/
  | suppression (state : SuppressionState) (hold : Nat) (clearRequested : Bool)
      (mode : SuppressionMode)
  /-- HOLD-SHORTEN of all slots (R146) -/
  | shortened (lowered awaiting : Nat)
  deriving DecidableEq, Repr

/-- A response: its status and its payload (R164). -/
structure Response where
  status : Status
  body : Body
  deriving DecidableEq, Repr

/-- A management command in execution: what its next arbiter access is (R166). -/
inductive Executing where
  | listWrite (source : Slot) (entries : List Entry) (clipped : Nat)
  | listRead (bank : BankName) (source : Slot)
  | captureEmpty
  /-- the copies still to make start at source `next` -/
  | captureCopy (next : Slot)
  | sourceList (first : RecordNo) (slot : Option Slot)
  deriving DecidableEq, Repr

/-- A transaction in progress: whether its frame will be refused, and what it clocks out (R164,
R165). -/
structure Transaction where
  refused : Bool
  out : Response
  deriving DecidableEq, Repr

/-- The management port's own state (09, and R172). `cutOff` says that a transaction which the port
does not take runs on: a cold reset cut it off, or it began while a cold reset was held (R172). -/
structure ManagementPort where
  held : Response
  executing : Option Executing
  transaction : Option Transaction
  cutOff : Bool
  latched : BitVec 12
  mask : BitVec 12
  cause : ResetCause
  deriving DecidableEq, Repr

/-! ### The timebase -/

/-- Where the frame boundary of the present chassis time stands. It is the model's own (assumption
5): no boundary is being taken; chassis time has become a multiple of 8 and FRAME_BOUNDARY has not
been taken; or it has been taken and counts whose fall ends them may still be due. -/
inductive BoundaryPhase where
  | quiet
  | reached
  | taken
  deriving DecidableEq, Repr

end Sys2Proof.Machine
end

