-- ==== Sys2Proof/Machine/Defaults.lean ====
section
/-! DEFINITION. The values that a cold reset gives each piece of state and each setting, from the
reset rules of the chapters (R23, R50, R68, R93, R116, R137, R150, R162, R172) and the settings
tables (R32, R86, R95, R135, R140, R158). -/

namespace Sys2Proof.Machine

/-- A FREE record. The fields of a FREE record carry no meaning (R1); the model holds them all at
zero (assumption 2). -/
def freeRecord : SourceRecord where
  state := .free
  slot := 0
  tag := 0
  profile := 0
  scale := 0
  start := 0
  length := 0
  limit := none
  cut := none
  late := false
  provisional := false

/-- The Source Table after either reset: 128 FREE records and live counts of 0 (R23). -/
def emptyTable : SourceTable where
  records := Vector.replicate 128 freeRecord
  liveCount := Vector.replicate 96 0

/-- The unusable set with no member. -/
def noUnusable : Vector Bool 512 := Vector.replicate 512 false

/-- The Profile Cache after a cold reset (R50). -/
def coldCache : ProfileCache where
  slots := Vector.replicate 32 .empty
  lru := []
  queue := []
  unusable := noUnusable
  flight := none
  port := .owned

/-- A bank whose lists are all of length 0 (R68). -/
def emptyBank : Bank where
  lists := Vector.replicate 96 []
  pool := 0

/-- The Coupling Store after a cold reset (R68). -/
def coldStore : CouplingStore where
  bankA := emptyBank
  bankB := emptyBank
  active := .a
  swapPending := false

/-- Rings empty and no evaluation in flight, after either reset (R93). -/
def emptyPrediction : PredictionEngine where
  rings := Vector.replicate 112 []
  evaluations := []
  gap := false

/-- The default of settle S (R95). -/
def defaultSettle : Nat := 8

/-- A target's adaptation record after a cold reset (R116). -/
def coldAdapt : AdaptRecord where
  settle := defaultSettle
  postscaler := 0
  divergence := 0
  hold := 0
  frozen := false
  lastResidual := 0
  settleDue := false
  holdDue := false

/-- The Adaptation Engine after a cold reset (R116). -/
def coldAdaptation : AdaptationEngine where
  records := Vector.replicate 112 coldAdapt
  steps := []
  openMoment := none
  gap := false

/-- A frame account with nothing taken (R121). -/
def freshAccount (f : Frame) (missingCounted : Bool) : Account where
  frame := f
  taken := Vector.replicate 8 false
  sum := 0
  count := 0
  missingCounted := missingCounted

/-- A station after a cold reset: the accounts are those of the frames before and of chassis time
0, which count no missing periods (R121, R137). -/
def coldStation : StationState where
  pendingA := none
  pair := none
  detected := .unlocked
  goodRun := 0
  badRun := 0
  force := none
  y1 := 0
  y2 := 0
  older := freshAccount (0 - 1) false
  newer := freshAccount 0 false
  shockHold := 0
  shockDue := false
  lastM := 0

/-- A suppression record after either reset (R150). -/
def clearSuppression : SuppressionRecord where
  state := .clear
  hold := 0
  clearRequested := false
  fallDue := false

/-- A slot's row link side while a cold reset is held: no window runs (R162). -/
def coldLinkSlot : LinkSlot where
  detected := .absent
  goodRun := 0
  missRun := 0
  force := none
  drive := .idle
  window := .over
  sent := none

/-- The row links while a cold reset is held (R162). -/
def coldLinks : RowLinks where
  slots := Vector.replicate 96 coldLinkSlot
  beacon := none

/-- The defaults of the global settings (R32, R86, R95, R135, R158). -/
def defaultGlobal : GlobalSettings where
  blanking := 3
  theta := 32
  settle := defaultSettle
  divergenceHold := 250
  stationLock := 8
  stationUnlock := 3
  shockHold := 25
  presenceLock := 4
  presenceUnlock := 3
  divider := 2

/-- The defaults of the common part of a target's settings (R95). -/
def defaultTarget : TargetSettings where
  enabled := true
  mu := 16
  deadband := 8
  gmax := 24576
  interval := 4

/-- The defaults of a slot's settings (R86, R140). -/
def defaultSlot : SlotSettings where
  feedLimit := 8192
  tap1 := none
  tap2 := none
  mode := .frame
  shockStation := none

/-- The defaults of a station's settings (R135). -/
def defaultStation : StationSettings where
  sense := .normal
  scale := 16384
  threshold := 16000
  coefficient := 1

/-- The settings table after a cold reset (R167). -/
def defaultSettings : Settings where
  global := defaultGlobal
  targets := Vector.replicate 112 defaultTarget
  slots := Vector.replicate 96 defaultSlot
  stations := Vector.replicate 16 defaultStation

/-- OK with length 0 (R172). -/
def okResponse : Response := ⟨.ok, .none⟩

/-- The management port after a cold reset: flags and mask cleared, the held response OK with
length 0, which is also RESTART COLD's own response, and the cause; `cutOff` where a transaction is
cut off (R172). -/
def coldPort (cause : ResetCause) (cutOff : Bool) : ManagementPort where
  held := okResponse
  executing := none
  transaction := none
  cutOff := cutOff
  latched := 0
  mask := 0
  cause := cause

/-- The window that opens with a frame: no message taken yet (R152). -/
def openWindow (l : LinkSlot) : LinkSlot := { l with window := .upstream none }

/-- The row links as a cold reset ends: the BEACON of frame 0 names bank A, and the windows of
frame 0 follow (R162). -/
def openedLinks (l : RowLinks) : RowLinks where
  slots := l.slots.map openWindow
  beacon := some ⟨0, .a⟩

end Sys2Proof.Machine
end

