-- ==== Sys2Proof/Machine/State.lean ====
section
/-! DEFINITION. The state of the DT-96 as plain data, every piece that spec/ names (INVENTORY.md,
"State"), the queue of commands that wait, and the reasons a step may stop. -/

namespace Sys2Proof.Machine

/-- The reasons of a fault. No command of the DT-96 stops the part, so there is none. -/
inductive Fault where
  deriving DecidableEq, Repr

/-- The reasons of a refusal. -/
inductive Refusal where
  /-- A command whose arm of `exec` gives no meaning yet. Safe: the model stops. No arm of this
  model answers so. -/
  | notModelled (mnemonic : String)
  deriving DecidableEq, Repr

/-- The state of the part. `coldReset` is the cause while a cold reset has been taken and has not
ended; `boundary` and `pending` are the model's own. -/
structure State where
  /-- chassis time (R151) -/
  now : Time
  /-- how far the frame boundary of the present chassis time has been taken (assumption 5) -/
  boundary : BoundaryPhase
  /-- the source of the cold reset that holds the part, if one does (R171) -/
  coldReset : Option ResetCause
  /-- the Source Table (R1) -/
  table : SourceTable
  /-- the Profile Cache (R33 to R37, R47) -/
  cache : ProfileCache
  /-- the Coupling Store (R52 to R54) -/
  store : CouplingStore
  /-- the Prediction Engine: rings and evaluations in flight (R70, R91) -/
  prediction : PredictionEngine
  /-- the Adaptation Engine (R94) -/
  adaptation : AdaptationEngine
  /-- the 16 stations (R118 to R132) -/
  stations : Vector StationState 16
  /-- the 96 suppression records (R139) -/
  suppression : Vector SuppressionRecord 96
  /-- the row links (R152 to R161) -/
  links : RowLinks
  /-- the settings table (R167) -/
  settings : Settings
  /-- the management port (R164, R168, R169, R172) -/
  port : ManagementPort
  /-- the commands that wait, first in first out (the model's own) -/
  pending : List Instr
  deriving DecidableEq, Repr

/-- The part while a cold reset of this cause is held (R171), with the queue it is given; `cutOff`
where the reset has cut a transaction off (R172). -/
def State.cold (cause : ResetCause) (cutOff : Bool) (queue : List Instr) : State where
  now := 0
  boundary := .quiet
  coldReset := some cause
  table := emptyTable
  cache := coldCache
  store := coldStore
  prediction := emptyPrediction
  adaptation := coldAdaptation
  stations := Vector.replicate 16 coldStation
  suppression := Vector.replicate 96 clearSuppression
  links := coldLinks
  settings := defaultSettings
  port := coldPort cause cutOff
  pending := queue

/-- The part right after the cold reset of power-up has ended: the row links have sent the BEACON
of frame 0 (R162, R171), and no command waits. -/
def State.reset : State :=
  { State.cold .powerUp false [] with coldReset := none, links := openedLinks coldLinks }

end Sys2Proof.Machine
end

