-- ==== Sys2Proof/Machine/Tables.lean ====
section
/-! DEFINITION. Reading and writing the part's numbered tables: records, slots, rings, lists,
stations and settings all stand in tables of fixed size and are reached through these. -/

namespace Sys2Proof.Machine

/-- Entry i of a table. -/
def tget {α : Type} {n : Nat} (t : Vector α n) (i : Fin n) : α := t[i.val]

/-- A table with entry i replaced. -/
def tset {α : Type} {n : Nat} (t : Vector α n) (i : Fin n) (v : α) : Vector α n := t.set i.val v

/-- A table with entry i changed by f. -/
def tmod {α : Type} {n : Nat} (t : Vector α n) (i : Fin n) (f : α → α) : Vector α n :=
  tset t i (f (tget t i))

/-- The numbers of the entries that satisfy p, ascending. -/
def indicesWhere {α : Type} {n : Nat} (t : Vector α n) (p : α → Bool) : List (Fin n) :=
  (List.finRange n).filter fun i => p (tget t i)

/-- The lowest number whose entry satisfies p. -/
def firstWhere {α : Type} {n : Nat} (t : Vector α n) (p : α → Bool) : Option (Fin n) :=
  (List.finRange n).find? fun i => p (tget t i)

end Sys2Proof.Machine
end

