-- ==== Sys2Proof/Machine/Flags.lean ====
section
/-! DEFINITION. The twelve flags: latching, live conditions, what READ-FLAGS returns, the ALERT line
and PMLENT (R48, R168, R169). -/

namespace Sys2Proof.Machine

/-- The place of a flag in the flag table, which is its bit (R168, R176). -/
def Flag.index : Flag → Nat
  | .noticeRefused => 0
  | .noticeLate => 1
  | .fetchFail => 2
  | .sensorLate => 3
  | .swapDone => 4
  | .divergence => 5
  | .frozen => 6
  | .shock => 7
  | .presenceChange => 8
  | .lockChange => 9
  | .clipped => 10
  | .lendGranted => 11

/-- The word with a flag's bit alone. -/
def Flag.bit (f : Flag) : BitVec 12 := 1#12 <<< f.index

/-- A flag's bit where a condition holds, and nothing where it does not. -/
def Flag.when (f : Flag) (b : Bool) : BitVec 12 := if b then f.bit else 0

/-- A flag is latched; a flag already latched stays latched (R168). -/
def latch (f : Flag) (s : State) : State :=
  { s with port := { s.port with latched := s.port.latched ||| f.bit } }

/-- Any target is frozen: the live condition of FROZEN (R115, R168). -/
def anyFrozen (s : State) : Bool :=
  s.adaptation.records.toList.any (·.frozen)

/-- Any slot is not CLEAR: the live condition of SHOCK (R148, R168). -/
def anySuppressed (s : State) : Bool :=
  s.suppression.toList.any fun r => decide (r.state ≠ .clear)

/-- The port is LENT: the live condition of LEND-GRANTED (R48, R168). -/
def portLent (s : State) : Bool := decide (s.cache.port = .lent)

/-- The flags whose live condition holds (R168). -/
def liveFlags (s : State) : BitVec 12 :=
  Flag.frozen.when (anyFrozen s) ||| Flag.shock.when (anySuppressed s)
    ||| Flag.lendGranted.when (portLent s)

/-- What READ-FLAGS would return: each flag latched or with its live condition holding (R168). -/
def flagsNow (s : State) : BitVec 12 := s.port.latched ||| liveFlags s

/-- ALERT is asserted while a flag enabled in the mask would be returned as 1 (R169). -/
def alertAsserted (s : State) : Bool := decide (flagsNow s &&& s.port.mask ≠ 0)

/-- PMLENT is high while the profile memory port is lent (R48). -/
def pmlentHigh (s : State) : Bool := portLent s

end Sys2Proof.Machine
end

