-- ==== Sys2Proof/Machine/Arith.lean ====
section
/-! DEFINITION. The comparisons of chassis times, the reading of stamps, frames, and the rounding
and clipping terms, each as spec/00_scope.md and R7 define it. -/

namespace Sys2Proof.Machine

/-- T1 is at or after T2: T1 − T2, modulo 2^32 and read as signed, is zero or positive. -/
abbrev AtOrAfter (t1 t2 : Time) : Prop := 0 ≤ (t1 - t2).toInt

/-- T1 is after T2: that difference is positive. -/
abbrev After (t1 t2 : Time) : Prop := 0 < (t1 - t2).toInt

/-- Before is the converse of after. -/
abbrev Before (t1 t2 : Time) : Prop := After t2 t1

/-- At or before is the converse of at or after. -/
abbrev AtOrBefore (t1 t2 : Time) : Prop := AtOrAfter t2 t1

/-- A count of sample periods as an amount of chassis time, modulo 2^32. -/
def periods (n : Nat) : Time := BitVec.ofNat 32 n

/-- The one chassis time whose low 16 bits are the stamp and that lies from now − 32768 to
now + 32767 (R7, R122). -/
def readStamp (now : Time) (stamp : Half) : Time :=
  now + (stamp - now.setWidth 16).signExtend 32

/-- The frame a chassis time falls in: chassis time ÷ 8 (00_scope). -/
def frameOf (t : Time) : Frame := (t >>> 3).setWidth 29

/-- The first sample of frame f: 8f (00_scope). -/
def firstSample (f : Frame) : Time := f.setWidth 32 <<< 3

/-- The sample period of a chassis time within its frame: chassis time mod 8. -/
def periodOf (t : Time) : Fin 8 := ⟨t.toNat % 8, Nat.mod_lt _ (by decide)⟩

/-- A frame tag: the frame number mod 8. -/
def frameTag (f : Frame) : Nat := f.toNat % 8

/-- The frame number on the wire: the frame number mod 65536. -/
def wireFrame (f : Frame) : Half := f.setWidth 16

/-- Division by a positive divisor rounded to nearest, halves up (00_scope): add half the divisor,
divide, take the floor. -/
def divNearest (a b : Int) : Int := (a + b / 2) / b

/-- The quotient rounded toward zero (00_scope). -/
def divTowardZero (a b : Int) : Int := a.tdiv b

/-- Clipped to ± L (00_scope). -/
def clip (l x : Int) : Int := if x > l then l else if x < -l then -l else x

/-- A value clipped into a range (R167). -/
def clipNat (lo hi x : Nat) : Nat := if x < lo then lo else if x > hi then hi else x

end Sys2Proof.Machine
end

