-- ==== Sys2Proof/Machine/Operands.lean ====
section
/-! DEFINITION. Reading the operands of commands: which slot, target, station, record, profile or
bank a byte or a 16-bit field names, choices by their number, and the defaults and ranges of the
settings (R165 to R167, R176). A field value that none of the choices can take reads as `none`,
which the command answers BAD-ARGUMENT. -/

namespace Sys2Proof.Machine

/-- The number below n that a field value names, if it is below n. -/
def below (n v : Nat) : Option (Fin n) := if h : v < n then some ⟨v, h⟩ else none

/-- The slot a byte names: 0 to 95. -/
def slotOf (b : Byte) : Option Slot := below 96 b.toNat

/-- The target a byte names: 0 to 111. -/
def targetOf (b : Byte) : Option Target := below 112 b.toNat

/-- The station a byte names: 0 to 15. -/
def stationOf (b : Byte) : Option Station := below 16 b.toNat

/-- The record a byte names: 0 to 127. -/
def recordOf (b : Byte) : Option RecordNo := below 128 b.toNat

/-- The tag a byte names: 0 to 7. -/
def tagOf (b : Byte) : Option Tag := below 8 b.toNat

/-- The profile id a 16-bit field names: 0 to 511. -/
def profileOf (h : Half) : Option ProfileId := below 512 h.toNat

/-- The bank a choice byte names: A is 0 and B is 1 (R176). -/
def bankOf (b : Byte) : Option BankName :=
  match b.toNat with
  | 0 => some .a
  | 1 => some .b
  | _ => none

/-- The choices of FORCE-PRESENCE, numbered in the order R160 lists them. -/
inductive ForceMode where
  | present
  | absent
  | release
  | keep
  deriving DecidableEq, Repr

/-- The mode of FORCE-PRESENCE that a choice byte names (R160, R176). -/
def presenceModeOf (b : Byte) : Option ForceMode :=
  match b.toNat with
  | 0 => some .present
  | 1 => some .absent
  | 2 => some .release
  | 3 => some .keep
  | _ => none

/-- The lock force a FORCE-LOCK mode byte asks for: LOCKED 0, UNLOCKED 1, RELEASE 2 (R129, R176).
The outer option is the byte's validity, the inner one the force. -/
def lockModeOf (b : Byte) : Option (Option Lock) :=
  match b.toNat with
  | 0 => some (some .locked)
  | 1 => some (some .unlocked)
  | 2 => some none
  | _ => none

/-- An optional slot: choice 0 absent, 1 present (R28, R176). DEDUCED (assumption 9): under choice 0
the slot's byte, which R176 has the sender send as 0, is ignored whatever it is. -/
def optionalSlotOf (choice b : Byte) : Option (Option Slot) :=
  match choice.toNat with
  | 0 => some none
  | 1 => (slotOf b).map some
  | _ => none

/-- A station choice: choice 0 absent, 1 a station 0 to 15 (R140, R176). Bytes that the choice does
not use are ignored (assumption 9). -/
def optionalStationOf (v : SettingValue) : Option (Option Station) :=
  match v.choice.toNat with
  | 0 => some none
  | 1 => (stationOf v.station).map some
  | _ => none

/-- An ambient tap: absent, or a station with its weight (R86, R167, R176). Every 16-bit weight is
in range. Bytes that choice 0 does not use are ignored (assumption 9). -/
def optionalTapOf (v : SettingValue) : Option (Option Tap) :=
  match v.choice.toNat with
  | 0 => some none
  | 1 => (stationOf v.station).map fun k => some ⟨k, v.value.toInt⟩
  | _ => none

/-- A choice with two values, numbered 0 and 1, in bytes 2 and 3 of a setting value (R176). Bytes 0
and 1 are ignored (assumption 9). -/
def choiceOf {α : Type} (v : SettingValue) (zero one : α) : Option α :=
  match v.value.toNat with
  | 0 => some zero
  | 1 => some one
  | _ => none

/-- The settings, in the order of the settings table (R167), which numbers them (R176). -/
inductive SettingName where
  | blanking
  | theta
  | settle
  | divergenceHold
  | stationLock
  | stationUnlock
  | shockHold
  | presenceLock
  | presenceUnlock
  | divider
  | enable
  | mu
  | deadband
  | gmax
  | interval
  | feedLimit
  | tap1
  | tap2
  | suppressionMode
  | shockStation
  | sense
  | scale
  | threshold
  | coefficient
  deriving DecidableEq, Repr

/-- The setting a name byte names: 0 to 23 (R176). -/
def settingOf (b : Byte) : Option SettingName :=
  match b.toNat with
  | 0 => some .blanking
  | 1 => some .theta
  | 2 => some .settle
  | 3 => some .divergenceHold
  | 4 => some .stationLock
  | 5 => some .stationUnlock
  | 6 => some .shockHold
  | 7 => some .presenceLock
  | 8 => some .presenceUnlock
  | 9 => some .divider
  | 10 => some .enable
  | 11 => some .mu
  | 12 => some .deadband
  | 13 => some .gmax
  | 14 => some .interval
  | 15 => some .feedLimit
  | 16 => some .tap1
  | 17 => some .tap2
  | 18 => some .suppressionMode
  | 19 => some .shockStation
  | 20 => some .sense
  | 21 => some .scale
  | 22 => some .threshold
  | 23 => some .coefficient
  | _ => none

/-- The record a record byte names: FFh the global record, 0 to 111 a target, any other value a
target above 111 (R176). -/
inductive RecordName where
  | global
  | target (t : Target)
  deriving DecidableEq, Repr

/-- The settings record a byte names (R176). -/
def settingRecordOf (b : Byte) : Option RecordName :=
  if b = 0xFF then some .global else (targetOf b).map .target

/-- A slot target's slot. -/
def slotOfTarget (t : Target) : Option Slot := below 96 t.val

/-- A station target's station. -/
def stationOfTarget (t : Target) : Option Station :=
  if 96 ≤ t.val then below 16 (t.val - 96) else none

/-- A setting together with the record it lives in: it exists only where the record has the part
the setting belongs to (R167). -/
inductive SettingSite where
  | global (n : SettingName)
  | target (t : Target) (n : SettingName)
  | slot (s : Slot) (n : SettingName)
  | station (k : Station) (n : SettingName)
  deriving DecidableEq, Repr

/-- Where a setting of a record lives, if the record has the part (R167). -/
def siteOf (r : RecordName) (n : SettingName) : Option SettingSite :=
  match n, r with
  | .blanking, .global | .theta, .global | .settle, .global | .divergenceHold, .global
  | .stationLock, .global | .stationUnlock, .global | .shockHold, .global
  | .presenceLock, .global | .presenceUnlock, .global | .divider, .global => some (.global n)
  | .enable, .target t | .mu, .target t | .deadband, .target t | .gmax, .target t
  | .interval, .target t => some (.target t n)
  | .feedLimit, .target t | .tap1, .target t | .tap2, .target t | .suppressionMode, .target t
  | .shockStation, .target t => (slotOfTarget t).map fun s => .slot s n
  | .sense, .target t | .scale, .target t | .threshold, .target t
  | .coefficient, .target t => (stationOfTarget t).map fun k => .station k n
  | _, _ => none

/-- The site a SETTING-WRITE or SETTING-READ names, or none where it is answered BAD-ARGUMENT. -/
def settingSite (a : SettingAddr) : Option SettingSite :=
  match settingRecordOf a.record, settingOf a.name with
  | some r, some n => siteOf r n
  | _, _ => none

end Sys2Proof.Machine
end

