-- ==== Sys2Proof/Machine/Ops.lean ====
section
/-! DEFINITION. The named operations that the meanings share: reading and changing each kind of
record, retirement and purges (R5, R22), the states of records and their time events (R2 to R4), the
fetch start (R38, R39), the entry actions of presence and lock (R159, R130), the suppression trigger
(R143), what the part does with a command, and how the management port takes a frame (R165). -/

namespace Sys2Proof.Machine

/-! ### Records, cache slots, targets, stations, slots -/

/-- Source record r. -/
def getRecord (r : RecordNo) (s : State) : SourceRecord := tget s.table.records r

/-- Source record r replaced. -/
def setRecord (r : RecordNo) (v : SourceRecord) (s : State) : State :=
  { s with table := { s.table with records := tset s.table.records r v } }

/-- A slot's live count (R1). -/
def getLive (slot : Slot) (s : State) : Nat := tget s.table.liveCount slot

/-- A slot's live count changed. -/
def modLive (slot : Slot) (f : Nat → Nat) (s : State) : State :=
  { s with table := { s.table with liveCount := tmod s.table.liveCount slot f } }

/-- A record is live in PENDING, RUNNING and TAIL (R1). -/
def isLive (v : SourceRecord) : Bool := decide (v.state ≠ .free)

/-- The live records, ascending. -/
def liveRecords (s : State) : List RecordNo := indicesWhere s.table.records isLive

/-- The live records of a slot, ascending. -/
def liveOfSlot (slot : Slot) (s : State) : List RecordNo :=
  indicesWhere s.table.records fun v => isLive v && decide (v.slot = slot)

/-- How many live records name a profile. -/
def liveNaming (id : ProfileId) (s : State) : Nat :=
  (indicesWhere s.table.records fun v => isLive v && decide (v.profile = id)).length

/-- A cache slot is FILLED with this id (R33). -/
def CacheSlot.filledWith (id : ProfileId) : CacheSlot → Bool
  | .filled i _ _ => decide (i = id)
  | _ => false

/-- A FILLED slot's reference count changed if it holds this id. -/
def CacheSlot.mapCount (id : ProfileId) (f : Nat → Nat) : CacheSlot → CacheSlot
  | .filled i p n => .filled i p (if i = id then f n else n)
  | c => c

/-- The reference count of a profile, changed if the profile is FILLED (R35). -/
def modCount (id : ProfileId) (f : Nat → Nat) (s : State) : State :=
  { s with cache := { s.cache with slots := s.cache.slots.map (CacheSlot.mapCount id f) } }

/-- A cache slot replaced. -/
def setCacheSlot (c : CacheNo) (v : CacheSlot) (s : State) : State :=
  { s with cache := { s.cache with slots := tset s.cache.slots c v } }

/-- The adaptation record of a target. -/
def getAdapt (t : Target) (s : State) : AdaptRecord := tget s.adaptation.records t

/-- The adaptation record of a target changed. -/
def modAdapt (t : Target) (f : AdaptRecord → AdaptRecord) (s : State) : State :=
  { s with adaptation := { s.adaptation with records := tmod s.adaptation.records t f } }

/-- A station's state. -/
def getStation (k : Station) (s : State) : StationState := tget s.stations k

/-- A station's state changed. -/
def modStation (k : Station) (f : StationState → StationState) (s : State) : State :=
  { s with stations := tmod s.stations k f }

/-- A slot's suppression record. -/
def getSuppression (slot : Slot) (s : State) : SuppressionRecord := tget s.suppression slot

/-- A slot's suppression record changed. -/
def modSuppression (slot : Slot) (f : SuppressionRecord → SuppressionRecord) (s : State) : State :=
  { s with suppression := tmod s.suppression slot f }

/-- A slot's side of its row link. -/
def getLink (slot : Slot) (s : State) : LinkSlot := tget s.links.slots slot

/-- A slot's side of its row link changed. -/
def modLink (slot : Slot) (f : LinkSlot → LinkSlot) (s : State) : State :=
  { s with links := { s.links with slots := tmod s.links.slots slot f } }

/-- A target's evaluation ring (R91). -/
def getRing (t : Target) (s : State) : List EvalRecord := tget s.prediction.rings t

/-- A target's evaluation ring replaced. -/
def setRing (t : Target) (l : List EvalRecord) (s : State) : State :=
  { s with prediction := { s.prediction with rings := tset s.prediction.rings t l } }

/-- The evaluations in flight replaced. -/
def setEvaluations (l : List Evaluation) (s : State) : State :=
  { s with prediction := { s.prediction with evaluations := l } }

/-- The moment that stands open, on a queue of steps that a grant has changed: a later step of it
may go before the steps of the moment that are in the queue, but for one whose updates have begun to
be granted, and every other (assumption 12). -/
def OpenMoment.onto (begun rest : List Step) (m : OpenMoment) : OpenMoment where
  moment := m.moment
  before := begun ++ rest.takeWhile fun st => decide (st.moment ≠ m.moment)
  taken := rest.dropWhile fun st => decide (st.moment ≠ m.moment)

/-- The steps in flight replaced, the first ones begun to be granted. -/
def setSteps (begun rest : List Step) (s : State) : State :=
  { s with adaptation := { s.adaptation with
      steps := begun ++ rest, openMoment := s.adaptation.openMoment.map (·.onto begun rest) } }

/-- Whose access the arbiter granted last (assumption 16). -/
def setGaps (prediction adaptation : Bool) (s : State) : State :=
  { s with
    prediction := { s.prediction with gap := prediction }
    adaptation := { s.adaptation with gap := adaptation } }

/-! ### Retirement and settle -/

/-- Retirement (R5): the record becomes FREE, its slot's live count falls by one, and its profile's
reference count falls by one if the profile is FILLED. -/
def retire (r : RecordNo) (s : State) : State :=
  modCount (getRecord r s).profile (· - 1)
    (modLive (getRecord r s).slot (· - 1) (setRecord r freeRecord s))

/-- The purge of a slot: every live record of it is retired, with no tail (R22). -/
def purgeSlot (slot : Slot) (s : State) : State :=
  (liveOfSlot slot s).foldl (fun s r => retire r s) s

/-- A target's settle count is set to S, the setting in force (R101). -/
def startSettle (t : Target) (s : State) : State :=
  modAdapt t (fun a => { a with settle := s.settings.global.settle }) s

/-! ### States and the passing of chassis time (R2 to R5) -/

/-- The full end of a motion: start + length (R2). -/
def SourceRecord.fullEnd (v : SourceRecord) : Time := v.start + periods v.length

/-- The end point E: the cut when one is present and earlier than start + length (R2). -/
def SourceRecord.endPoint (v : SourceRecord) : Time :=
  match v.cut with
  | none => v.fullEnd
  | some c => if Before c v.fullEnd then c else v.fullEnd

/-- The end of the tail: E + 15 (R2, R3). -/
def SourceRecord.tailEnd (v : SourceRecord) : Time := v.endPoint + periods 15

/-- The state that start, E and now give a live record, or none where it is to be retired (R4). -/
def SourceRecord.stateAt (v : SourceRecord) (now : Time) : Option RecordState :=
  if After v.start now then some .pending
  else if After v.endPoint now then some .running
  else if After v.tailEnd now then some .tail
  else none

/-- A live record's state is set at once from its start, its E and now (R4). -/
def settleRecord (r : RecordNo) (s : State) : State :=
  match (getRecord r s).stateAt s.now with
  | some st => setRecord r { getRecord r s with state := st } s
  | none => retire r s

/-- A live record that a time event at now is still to move. -/
def recordDue (v : SourceRecord) (now : Time) : Bool :=
  isLive v && decide (v.stateAt now ≠ some v.state)

/-- The time events that are still due are taken, record by record: they fall at the moment chassis
time advances, so nothing else at that chassis time comes before them (R3). -/
def takeRecordEvents (s : State) : State :=
  (List.finRange 128).foldl
    (fun s r => if recordDue (getRecord r s) s.now then settleRecord r s else s) s

/-! ### The fetch start (R38, R39) -/

/-- The cache slot that is FILLED with a profile (R33). -/
def residentSlot (id : ProfileId) (s : State) : Option CacheNo :=
  firstWhere s.cache.slots (CacheSlot.filledWith id)

/-- A FILLED slot of count 0. -/
def CacheSlot.replaceable : CacheSlot → Bool
  | .filled _ _ n => decide (n = 0)
  | _ => false

/-- The target slot for the queue head: the lowest EMPTY slot, or else the least recently used
FILLED slot of count 0, or none (R39). -/
def fetchTarget (s : State) : Option CacheNo :=
  match firstWhere s.cache.slots fun c => decide (c = .empty) with
  | some c => some c
  | none => s.cache.lru.find? fun c => (tget s.cache.slots c).replaceable

/-- The head leaves the queue, its slot becomes FILLING and leaves the LRU order, and the page read
begins at the divider in force (R32, R38). -/
def fetchInto (c : CacheNo) (id : ProfileId) (rest : List ProfileId) (s : State) : State :=
  { s with cache := { s.cache with
      slots := tset s.cache.slots c (.filling id)
      lru := s.cache.lru.filter fun d => decide (d ≠ c)
      queue := rest
      flight := some ⟨c, id, s.settings.global.divider⟩ } }

/-- All the conditions of a fetch start hold: no fetch is in flight, the port is OWNED, the queue is
not empty and its head has a target slot (R38). -/
def startDue (s : State) : Bool :=
  s.cache.flight.isNone && decide (s.cache.port = .owned) && decide (s.cache.queue ≠ [])
    && (fetchTarget s).isSome

/-- A fetch starts at the moment that all its conditions hold; at any other there is no start
(R38). -/
def fetchStart (s : State) : State :=
  match s.cache.flight, s.cache.port, s.cache.queue, fetchTarget s with
  | none, .owned, id :: rest, some c => fetchInto c id rest s
  | _, _, _, _ => s

/-- What has come before a command at its moment: the records' time events of its chassis time (R3),
and then a fetch start whose conditions hold (R38). -/
def takeMoment (s : State) : State := fetchStart (takeRecordEvents s)

/-- The start due would choose the count-zero slot of a profile: a NOTICE or a DROP of the profile
may be taken at that moment, and then the queue of commands says which is first (R39, R45). -/
def startYields (id : ProfileId) (s : State) : Bool :=
  startDue s && decide (fetchTarget s = residentSlot id s)

/-- What has come before a NOTICE or a DROP of a profile at its moment: as before every command, but
for a start that yields to it. A queue in which the start is first names it (assumption 22). -/
def takeMomentFor (id : ProfileId) (s : State) : State :=
  if startYields id (takeRecordEvents s) then takeRecordEvents s else takeMoment s

/-! ### Presence (R157 to R160) -/

/-- The effective presence state: the forced one while a force is set (R157, R160). -/
def LinkSlot.effective (l : LinkSlot) : Presence := l.force.getD l.detected

/-- Eight zeros. -/
def zeroValues : Vector Int 8 := Vector.replicate 8 0

/-- The ABSENT block: eight zeros and the single flag ABSENT (R85). -/
def absentBlock : Block := ⟨zeroValues, true, false, false, false, false⟩

/-- The block of an evaluation that a warm reset abandoned: eight zeros and the single flag PARTIAL
(R75). -/
def cutBlock : Block := ⟨zeroValues, false, false, false, false, true⟩

/-- The window of an abandoned evaluation sends this block instead (R75). -/
def Window.abandon (b : Block) : Window → Window
  | .feedPhase m .evaluating => .feedPhase m (.ready b)
  | w => w

/-- The evaluations in flight but for a target's, whose waiting reads are withdrawn (R75). -/
def dropEvaluation (t : Target) (s : State) : State :=
  setEvaluations (s.prediction.evaluations.filter fun e => decide (e.target ≠ t)) s

/-- The actions of a slot's entry into ABSENT (R159): purge, ring emptied, evaluation in flight
abandoned, PRESENCE-CHANGE latched. -/
def enterAbsent (slot : Slot) (s : State) : State :=
  latch .presenceChange
    (modLink slot (fun l => { l with window := l.window.abandon absentBlock })
      (dropEvaluation (slotTarget slot) (setRing (slotTarget slot) [] (purgeSlot slot s))))

/-- The actions of a slot's entry into PRESENT (R159): settle count set, PRESENCE-CHANGE latched. -/
def enterPresent (slot : Slot) (s : State) : State :=
  latch .presenceChange (startSettle (slotTarget slot) s)

/-- A slot's presence (detected state, counts, force) is changed, and the entry actions are taken
if the effective state changes (R157, R159, R160). -/
def changePresence (slot : Slot) (f : LinkSlot → LinkSlot) (s : State) : State :=
  if (getLink slot (modLink slot f s)).effective = (getLink slot s).effective then modLink slot f s
  else match (getLink slot (modLink slot f s)).effective with
    | .absent => enterAbsent slot (modLink slot f s)
    | .present => enterPresent slot (modLink slot f s)

/-! ### Lock (R128 to R130) -/

/-- The effective lock state: the forced one while a force is set (R129). -/
def StationState.effective (st : StationState) : Lock := st.force.getD st.detected

/-- An account with its residuals discarded (R130). -/
def Account.clearResiduals (a : Account) : Account := { a with sum := 0, count := 0 }

/-- The actions of a station's entry into UNLOCKED on its filter and accounts (R130). -/
def StationState.unlock (st : StationState) : StationState :=
  { st with
    y1 := 0, y2 := 0, older := st.older.clearResiduals, newer := st.newer.clearResiduals }

/-- A station's lock (detected state, runs, force) is changed, and the entry actions of R130 are
taken if the effective state changes. -/
def changeLock (k : Station) (f : StationState → StationState) (s : State) : State :=
  if (getStation k (modStation k f s)).effective = (getStation k s).effective then modStation k f s
  else match (getStation k (modStation k f s)).effective with
    | .unlocked => latch .lockChange (modStation k StationState.unlock (modStation k f s))
    | .locked => latch .lockChange (startSettle (stationTarget k) (modStation k f s))

/-! ### Suppression (R143) -/

/-- A trigger: from every state the slot is HELD with H frames and no clear request, and SHOCK is
latched (R143). -/
def trigger (slot : Slot) (s : State) : State :=
  latch .shock
    (modSuppression slot
      (fun r => { r with
        state := .held, hold := s.settings.global.shockHold, clearRequested := false }) s)

/-! ### A running part -/

/-- A cold reset ends: the row links send the BEACON of frame 0 and open its windows; the moment is
no frame boundary (R151, R162). -/
def endColdReset (s : State) : State :=
  { s with coldReset := none, links := openedLinks s.links }

/-- What the part does with a command: `f` on a running part, and `held` while a cold reset is held.
A cold reset of RESTART COLD ends without any line being held (R171), so it has ended before the
next command is taken (assumption 8). -/
def onPart (held f : State → State) (s : State) : Host.Outcome State Fault Refusal :=
  match s.coldReset with
  | none => .next (f s)
  | some .restartCold => .next (f (endColdReset s))
  | some _ => .next (held s)

/-- A command that only a running part takes: while a cold reset is held the part takes nothing
(R162, R171, R172). -/
def running (f : State → State) (s : State) : Host.Outcome State Fault Refusal := onPart id f s

/-- A command of a running part that is no time event of a record: the records' time events at the
present chassis time have come before it (R3), and so has a fetch start whose conditions hold
(R38). -/
def afterEvents (f : State → State) (s : State) : Host.Outcome State Fault Refusal :=
  running (fun s => f (takeMoment s)) s

/-! ### The management port (R164 to R166) -/

/-- A command completes: its response becomes the held response (R165). -/
def respond (r : Response) (s : State) : State := { s with port := { s.port with held := r } }

/-- A response with a status and no payload. -/
def bare (st : Status) : Response := ⟨st, .none⟩

/-- An OK with its payload. -/
def okWith (b : Body) : Response := ⟨.ok, b⟩

/-- The frame of the transaction that now ends is not taken. Its transaction began while a command
was in execution (R165); or a cold reset cut the transaction off, or it began while one was held
(R172). A frame whose transaction's start the queue does not hold is judged as one begun at its own
moment (assumption 6). -/
def frameRefused (s : State) : Bool :=
  match s.port.transaction with
  | some t => t.refused
  | none => s.port.cutOff || s.port.executing.isSome

/-- The transaction ends with its frame (R164), one that the port did not take among them (R172). -/
def endTransaction (s : State) : State :=
  { s with port := { s.port with transaction := none, cutOff := false } }

/-- A frame with a known code is taken (R165): refused without effect, or answered BAD-ARGUMENT for
its length, or executed on its fields. -/
def takeFrame {α : Type} (p : Payload α) (f : α → State → State) (s : State) : State :=
  if frameRefused s then endTransaction s
  else match p with
    | .wrongLength => respond (bare .badArgument) (endTransaction s)
    | .fields a => f a (endTransaction s)

/-- A management command, after what has come before it. While a cold reset is held its transaction
ends and its frame is not taken (R172). -/
def manageAfter {α : Type} (before : State → State) (p : Payload α) (f : α → State → State)
    (s : State) : Host.Outcome State Fault Refusal :=
  onPart endTransaction (fun s => takeFrame p f (before s)) s

/-- A management command that no fetch start yields to. -/
def manage {α : Type} (p : Payload α) (f : α → State → State) (s : State) :
    Host.Outcome State Fault Refusal :=
  manageAfter takeMoment p f s

/-- A command that waits on the arbiter is in execution (R165, R166). -/
def execute (e : Executing) (s : State) : State :=
  { s with port := { s.port with executing := some e } }

/-- A command that waited on the arbiter completes with its response (R165, R166). -/
def finish (r : Response) (s : State) : State :=
  { s with port := { s.port with executing := none, held := r } }

/-! ### The arbiter (R64) -/

/-- An evaluation has list reads still to make. -/
def hasReads (s : State) : Bool :=
  s.prediction.evaluations.any fun e => decide (e.waiting ≠ [])

/-- A list read of the Prediction Engine is presented and waits, so that no other requester is
granted before it (R64). Right after a read has ended the next one may not have been presented yet
(3.5): then another requester may be granted first (R74), or the next read, as the queue of commands
says (assumption 16). -/
def predictionWaits (s : State) : Bool := hasReads s && !s.prediction.gap

/-- A gain update of the Adaptation Engine is presented and waits, in the same sense. -/
def adaptationWaits (s : State) : Bool := decide (s.adaptation.steps ≠ []) && !s.adaptation.gap

/-- The Management Port is granted only when neither of the others waits (R64). -/
def portMayBeGranted (s : State) : Bool := !predictionWaits s && !adaptationWaits s

/-- An access of the Management Port has been granted, and the other requesters have presented
theirs by its end (R64). -/
def portAccess (s : State) : State := setGaps false false s

/-! ### Banks -/

/-- The other bank. -/
def BankName.other : BankName → BankName
  | .a => .b
  | .b => .a

/-- The bank of a name. -/
def CouplingStore.bank (c : CouplingStore) : BankName → Bank
  | .a => c.bankA
  | .b => c.bankB

/-- A bank replaced. -/
def CouplingStore.setBank (c : CouplingStore) (n : BankName) (b : Bank) : CouplingStore :=
  match n with
  | .a => { c with bankA := b }
  | .b => { c with bankB := b }

/-- The staging bank's name (R52). -/
def CouplingStore.staging (c : CouplingStore) : BankName := c.active.other

/-- The Coupling Store replaced. -/
def setStore (c : CouplingStore) (s : State) : State := { s with store := c }

end Sys2Proof.Machine
end

