-- ==== Sys2Proof/WellFormed.lean ====
section
/-! DEFINITION. Which terms of `Instr` are commands that can occur. A drive message that fails one
of these checks is a malformed message (R154); a page, a frame or a boundary that fails one cannot
occur at all. -/

namespace Sys2Proof

/-- A length limit that is present lies from 1 to 256 (R154, R174). -/
def NoticeFields.wellFormed (m : NoticeFields) : Bool :=
  match m.limit with
  | none => true
  | some l => decide (1 ≤ l) && decide (l ≤ 256)

/-- An AMEND carries a new start stamp or a new scale (R154, R174). -/
def AmendFields.wellFormed (m : AmendFields) : Bool :=
  m.start.isSome || m.scale.isSome

/-- The command codes of the management port (R176): 01h to 1Bh but for 12h. -/
def knownCode (code : Byte) : Bool :=
  decide (1 ≤ code.toNat) && decide (code.toNat ≤ 0x1B) && decide (code.toNat ≠ 0x12)

/-- The stations whose cycles a boundary's schedule places before its swap. -/
def cyclesOf : List BoundaryAct → List Station
  | [] => []
  | .cycle k :: rest => k :: cyclesOf rest
  | .predictionRead :: rest => cyclesOf rest
  | .gainUpdate :: rest => cyclesOf rest

/-- A good page holds 1 to 256 samples (R30); a LIST-WRITE frame carries at most 63 entries (R176);
an unknown command has a code that R176 does not list; a station has one cycle at a boundary (R72).
-/
def Instr.wellFormed : Instr → Bool
  | .notice _ m => m.wellFormed
  | .amend _ m => m.wellFormed
  | .fetchCompleteGood samples => decide (1 ≤ samples.length) && decide (samples.length ≤ 256)
  | .listWrite (.fields a) => decide (a.entries.length ≤ 63)
  | .unknownCommand code => !knownCode code
  | .frameBoundary acts => decide (cyclesOf acts).Nodup
  | _ => true

end Sys2Proof
end

