-- ==== Sys2Proof/Machine/Management.lean ====
section
/-! DEFINITION. The management port's own commands (spec/09): TRANSACTION-START, IDENTIFY,
READ-FLAGS, SET-ALERT-MASK, the settings, and the answer to an unknown command code. -/

namespace Sys2Proof.Machine

/-! ### Transactions (R164, R165) -/

/-- What a transaction that starts now clocks out: the held response, or BUSY with length 0 if a
command is in execution (R164). -/
def clockedOut (s : State) : Response :=
  if s.port.executing.isSome then bare .busy else s.port.held

/-- The select goes low: what the transaction clocks out, and whether its frame will be refused, are
fixed (R164, R165). -/
def transactionStart (s : State) : State :=
  { s with port := { s.port with
      transaction := some ⟨s.port.executing.isSome, clockedOut s⟩, cutOff := false } }

/-- A transaction begins that the port does not take, since a cold reset is held (R172). -/
def untakenStart (s : State) : State := { s with port := { s.port with cutOff := true } }

/-- TRANSACTION-START (R164, R172). -/
def execTransactionStart (s : State) : Host.Outcome State Fault Refusal :=
  onPart untakenStart (fun s => transactionStart (takeMoment s)) s

/-- A frame with an unknown command code is refused with its transaction, or answered
UNKNOWN-COMMAND (R165). A code that R176 lists is no unknown command. -/
def unknownCommand (code : Byte) (s : State) : State :=
  if knownCode code then s
  else if frameRefused s then endTransaction s
  else respond (bare .unknownCommand) (endTransaction s)

/-- UNKNOWN-COMMAND (R165, R172). -/
def execUnknownCommand (code : Byte) (s : State) : Host.Outcome State Fault Refusal :=
  onPart (fun s => if knownCode code then s else endTransaction s)
    (fun s => unknownCommand code (takeMoment s)) s

/-! ### Identity, flags and mask (R168 to R170) -/

/-- The part code (R170). -/
def partCode : Nat := 96

/-- The capacities IDENTIFY reports: slots, stations, source records, cache slots, entries per bank
(R170). -/
def capacities : List Nat := [96, 16, 128, 32, 1536]

/-- IDENTIFY (R170): changes nothing but the held response. -/
def execIdentify (p : Payload Unit) (s : State) : Host.Outcome State Fault Refusal :=
  manage p (fun _ s => respond (okWith (.identity partCode capacities s.now s.port.cause)) s) s

/-- READ-FLAGS returns each flag latched or live, and clears every latched flag (R168). -/
def readFlags (s : State) : State :=
  respond (okWith (.flags (flagsNow s))) { s with port := { s.port with latched := 0 } }

/-- READ-FLAGS (R168). -/
def execReadFlags (p : Payload Unit) (s : State) : Host.Outcome State Fault Refusal :=
  manage p (fun _ => readFlags) s

/-- SET-ALERT-MASK replaces the mask with the twelve enables it carries (R169); the field's bits 12
to 15 are ignored (assumption 9). -/
def setAlertMask (h : Half) (s : State) : State :=
  respond (okWith (.flags (h.setWidth 12)))
    { s with port := { s.port with mask := h.setWidth 12 } }

/-- SET-ALERT-MASK (R169). -/
def execSetAlertMask (p : Payload Half) (s : State) : Host.Outcome State Fault Refusal :=
  manage p setAlertMask s

/-! ### Settings (R167, R176) -/

/-- A numeric setting value on the wire: bytes 2 and 3 (R176). -/
def numberValue (n : Nat) : SettingValue := ⟨0, 0, BitVec.ofNat 16 n⟩

/-- A station choice on the wire (R176). -/
def stationValue : Option Station → SettingValue
  | none => ⟨0, 0, 0⟩
  | some k => ⟨1, BitVec.ofNat 8 k.val, 0⟩

/-- An ambient tap on the wire (R176). -/
def tapValue : Option Tap → SettingValue
  | none => ⟨0, 0, 0⟩
  | some t => ⟨1, BitVec.ofNat 8 t.station.val, BitVec.ofInt 16 t.weight⟩

/-- The value in force of a global setting. -/
def GlobalSettings.read (g : GlobalSettings) : SettingName → SettingValue
  | .blanking => numberValue g.blanking
  | .theta => numberValue g.theta
  | .settle => numberValue g.settle
  | .divergenceHold => numberValue g.divergenceHold
  | .stationLock => numberValue g.stationLock
  | .stationUnlock => numberValue g.stationUnlock
  | .shockHold => numberValue g.shockHold
  | .presenceLock => numberValue g.presenceLock
  | .presenceUnlock => numberValue g.presenceUnlock
  | .divider => numberValue g.divider
  | _ => numberValue 0

/-- A numeric value clipped into a global setting's range (R32, R86, R95, R135, R158). -/
def GlobalSettings.write (g : GlobalSettings) (n : SettingName) (v : Nat) : GlobalSettings :=
  match n with
  | .blanking => { g with blanking := clipNat 0 15 v }
  | .theta => { g with theta := clipNat 0 32767 v }
  | .settle => { g with settle := clipNat 0 63 v }
  | .divergenceHold => { g with divergenceHold := clipNat 1 4095 v }
  | .stationLock => { g with stationLock := clipNat 1 31 v }
  | .stationUnlock => { g with stationUnlock := clipNat 1 31 v }
  | .shockHold => { g with shockHold := clipNat 1 1023 v }
  | .presenceLock => { g with presenceLock := clipNat 1 31 v }
  | .presenceUnlock => { g with presenceUnlock := clipNat 1 15 v }
  | .divider => { g with divider := clipNat 2 16 v }
  | _ => g

/-- The value in force of a target's common setting. -/
def TargetSettings.read (g : TargetSettings) : SettingName → SettingValue
  | .enable => numberValue (if g.enabled then 0 else 1)
  | .mu => numberValue g.mu
  | .deadband => numberValue g.deadband
  | .gmax => numberValue g.gmax
  | .interval => numberValue g.interval
  | _ => numberValue 0

/-- A common setting stored, or none for a value that is none of its choices (R95, R167). -/
def TargetSettings.write (g : TargetSettings) (n : SettingName) (v : SettingValue) :
    Option TargetSettings :=
  match n with
  | .enable => (choiceOf v true false).map fun b => { g with enabled := b }
  | .mu => some { g with mu := clipNat 0 255 v.value.toNat }
  | .deadband => some { g with deadband := clipNat 0 4095 v.value.toNat }
  | .gmax => some { g with gmax := clipNat 1 32767 v.value.toNat }
  | .interval => some { g with interval := clipNat 1 16 v.value.toNat }
  | _ => none

/-- The value in force of a slot's setting. -/
def SlotSettings.read (g : SlotSettings) : SettingName → SettingValue
  | .feedLimit => numberValue g.feedLimit
  | .tap1 => tapValue g.tap1
  | .tap2 => tapValue g.tap2
  | .suppressionMode => numberValue (match g.mode with
    | .frame => 0
    | .latched => 1)
  | .shockStation => stationValue g.shockStation
  | _ => numberValue 0

/-- A slot setting stored, or none for a value that is none of its choices (R86, R140, R167). -/
def SlotSettings.write (g : SlotSettings) (n : SettingName) (v : SettingValue) :
    Option SlotSettings :=
  match n with
  | .feedLimit => some { g with feedLimit := clipNat 1 32767 v.value.toNat }
  | .tap1 => (optionalTapOf v).map fun t => { g with tap1 := t }
  | .tap2 => (optionalTapOf v).map fun t => { g with tap2 := t }
  | .suppressionMode =>
    (choiceOf v SuppressionMode.frame SuppressionMode.latched).map fun m => { g with mode := m }
  | .shockStation => (optionalStationOf v).map fun k => { g with shockStation := k }
  | _ => none

/-- The value in force of a station's setting. -/
def StationSettings.read (g : StationSettings) : SettingName → SettingValue
  | .sense => numberValue (match g.sense with
    | .normal => 0
    | .reversed => 1)
  | .scale => numberValue g.scale
  | .threshold => numberValue g.threshold
  | .coefficient => numberValue g.coefficient
  | _ => numberValue 0

/-- A station setting stored, or none for a value that is none of its choices (R135, R167). -/
def StationSettings.write (g : StationSettings) (n : SettingName) (v : SettingValue) :
    Option StationSettings :=
  match n with
  | .sense => (choiceOf v Sense.normal Sense.reversed).map fun x => { g with sense := x }
  | .scale => some { g with scale := clipNat 0 65535 v.value.toNat }
  | .threshold => some { g with threshold := clipNat 1 32767 v.value.toNat }
  | .coefficient => some { g with coefficient := clipNat 0 3 v.value.toNat }
  | _ => none

/-- The value in force of a setting (R167). -/
def Settings.read (g : Settings) : SettingSite → SettingValue
  | .global n => g.global.read n
  | .target t n => (tget g.targets t).read n
  | .slot sl n => (tget g.slots sl).read n
  | .station k n => (tget g.stations k).read n

/-- The settings table with a value stored, or none where the value is refused (R167). -/
def Settings.write (g : Settings) (site : SettingSite) (v : SettingValue) : Option Settings :=
  match site with
  | .global n => some { g with global := g.global.write n v.value.toNat }
  | .target t n =>
    ((tget g.targets t).write n v).map fun x => { g with targets := tset g.targets t x }
  | .slot sl n => ((tget g.slots sl).write n v).map fun x => { g with slots := tset g.slots sl x }
  | .station k n =>
    ((tget g.stations k).write n v).map fun x => { g with stations := tset g.stations k x }

/-- A stored write: the value is in force from now, and the response carries it (R167). -/
def storeSettings (site : SettingSite) (g : Settings) (s : State) : State :=
  respond (okWith (.setting (g.read site))) { s with settings := g }

/-- SETTING-WRITE (R167). -/
def settingWrite (a : SettingAddr × SettingValue) (s : State) : State :=
  match settingSite a.1 with
  | none => respond (bare .badArgument) s
  | some site =>
    match s.settings.write site a.2 with
    | none => respond (bare .badArgument) s
    | some g => storeSettings site g s

/-- SETTING-WRITE (R167). -/
def execSettingWrite (p : Payload (SettingAddr × SettingValue)) (s : State) :
    Host.Outcome State Fault Refusal :=
  manage p settingWrite s

/-- SETTING-READ (R167). -/
def settingRead (a : SettingAddr) (s : State) : State :=
  match settingSite a with
  | none => respond (bare .badArgument) s
  | some site => respond (okWith (.setting (s.settings.read site))) s

/-- SETTING-READ (R167). -/
def execSettingRead (p : Payload SettingAddr) (s : State) : Host.Outcome State Fault Refusal :=
  manage p settingRead s

end Sys2Proof.Machine
end

