-- ==== Sys2Proof/Machine/SourceTable.lean ====
section
/-! DEFINITION. The Source Table (spec/01): a record's three time events, the answers to NOTICE,
AMEND, WITHDRAW and CLOSE, and the commands SOURCE-QUERY, SOURCE-LIST and its grant. -/

namespace Sys2Proof.Machine

/-! ### The three time events (R3) -/

/-- Chassis time has reached a PENDING record's start (R3). -/
def recordStart (r : RecordNo) (s : State) : State :=
  if (getRecord r s).state = .pending ∧ AtOrAfter s.now (getRecord r s).start then
    setRecord r { getRecord r s with state := .running } s
  else s

/-- Chassis time has reached a RUNNING record's E (R3). -/
def recordEnd (r : RecordNo) (s : State) : State :=
  if (getRecord r s).state = .running ∧ AtOrAfter s.now (getRecord r s).endPoint then
    setRecord r { getRecord r s with state := .tail } s
  else s

/-- Chassis time has reached a TAIL record's E + 15 (R3). -/
def recordRetirement (r : RecordNo) (s : State) : State :=
  if (getRecord r s).state = .tail ∧ AtOrAfter s.now (getRecord r s).tailEnd then retire r s
  else s

/-! ### The profiles of records (R9, R11, R20) -/

/-- The samples of a FILLED slot. -/
def CacheSlot.samples : CacheSlot → List Int
  | .filled _ p _ => p
  | _ => []

/-- The samples of a resident profile (R33). -/
def residentSamples (id : ProfileId) (s : State) : Option (List Int) :=
  (residentSlot id s).map fun c => (tget s.cache.slots c).samples

/-- A FILLING slot holds the id (R33). -/
def inFlight (id : ProfileId) (s : State) : Bool :=
  match s.cache.flight with
  | some f => decide (f.id = id)
  | none => false

/-- The id is in the fetch queue (R36). -/
def queued (id : ProfileId) (s : State) : Bool := decide (id ∈ s.cache.queue)

/-- The id is in the unusable set (R37). -/
def unusable (id : ProfileId) (s : State) : Bool := tget s.cache.unusable id

/-- The id is neither resident, in flight nor queued (R36). -/
def absentProfile (id : ProfileId) (s : State) : Bool :=
  (residentSlot id s).isNone && !inFlight id s && !queued id s

/-- The capacity of the fetch queue (R36). -/
def queueCapacity : Nat := 16

/-- The fetch queue holds 16 ids. -/
def queueFull (s : State) : Bool := decide (queueCapacity ≤ s.cache.queue.length)

/-- An id joins the tail of the fetch queue (R36). -/
def enqueue (id : ProfileId) (s : State) : State :=
  { s with cache := { s.cache with queue := s.cache.queue ++ [id] } }

/-- A FILLED slot moves to the most recently used place (R34). -/
def touch (c : CacheNo) (s : State) : State :=
  { s with cache := { s.cache with lru := s.cache.lru.filter (fun d => decide (d ≠ c)) ++ [c] } }

/-- The confirmed length: the length limit if present and no greater than the profile's length, and
otherwise the profile's length (R11, R20). -/
def confirmedLength (limit : Option Nat) (profileLength : Nat) : Nat :=
  match limit with
  | some l => if l ≤ profileLength then l else profileLength
  | none => profileLength

/-! ### The answers to messages (R7 to R17) -/

/-- How many samples ahead a start may lie (R9, R15). -/
def farLimit : Time := periods 4096

/-- The lead test: the start lies before the first sample of frame f + 2 (R10). -/
abbrev InsideLead (start now : Time) : Prop := Before start (firstSample (frameOf now) + periods 16)

/-- The live record of a slot with a tag (R6). -/
def findTag (slot : Slot) (tag : Tag) (s : State) : Option RecordNo :=
  firstWhere s.table.records fun v => isLive v && decide (v.slot = slot) && decide (v.tag = tag)

/-- The provisional length L of a NOTICE (R9). -/
def noticeLength (m : NoticeFields) (s : State) : Nat :=
  match m.limit with
  | some l => l
  | none =>
    match residentSamples m.profile s with
    | some p => p.length
    | none => 256

/-- The first check of R9 that a NOTICE fails, as its reply. -/
def noticeRefusal (slot : Slot) (m : NoticeFields) (s : State) : Option Reply :=
  if (findTag slot m.tag s).isSome then some .tagInUse
  else if 3 ≤ getLive slot s then some .slotLimit
  else if unusable m.profile s then some .profileBad
  else if After (readStamp s.now m.start) (s.now + farLimit) then some .tooFar
  else if AtOrBefore (readStamp s.now m.start + periods (noticeLength m s) + periods 15) s.now then
    some .stale
  else if (firstWhere s.table.records fun v => !isLive v) = none then some .full
  else if absentProfile m.profile s && queueFull s then some .busy
  else none

/-- The reply of a message that is taken, by the lead test (R10). -/
def leadReply (start now : Time) : Reply := if InsideLead start now then .takenLate else .taken

/-- NOTICE-LATE is latched with the reply TAKEN-LATE (R13, R15). -/
def latchLate (start : Time) (s : State) : State :=
  if InsideLead start s.now then latch .noticeLate s else s

/-- The record a taken NOTICE fills (R11). -/
def noticeRecord (slot : Slot) (m : NoticeFields) (s : State) : SourceRecord where
  state := .pending
  slot := slot
  tag := m.tag
  profile := m.profile
  scale := m.scale.toInt
  start := readStamp s.now m.start
  length :=
    match residentSamples m.profile s with
    | some p => confirmedLength m.limit p.length
    | none => noticeLength m s
  limit := m.limit
  cut := none
  late := decide (InsideLead (readStamp s.now m.start) s.now)
  provisional := (residentSlot m.profile s).isNone

/-- What a taken NOTICE asks of the Profile Cache (R11, R26): a resident profile becomes most
recently used and its count rises; an absent one joins the fetch queue. -/
def noticeProfile (id : ProfileId) (s : State) : State :=
  match residentSlot id s with
  | some c => modCount id (· + 1) (touch c s)
  | none => if absentProfile id s then enqueue id s else s

/-- A NOTICE is taken into record r (R11, R12). -/
def noticeInto (r : RecordNo) (slot : Slot) (m : NoticeFields) (s : State) : State :=
  settleRecord r
    (modLive slot (· + 1) (setRecord r (noticeRecord slot m s) (noticeProfile m.profile s)))

/-- The answer to a NOTICE from a PRESENT slot (R9 to R13). -/
def noticePresent (slot : Slot) (m : NoticeFields) (s : State) : Reply × State :=
  match noticeRefusal slot m s with
  | some reply => (reply, latch .noticeRefused s)
  | none =>
    match firstWhere s.table.records fun v => !isLive v with
    | none => (.full, latch .noticeRefused s)
    | some r =>
      (leadReply (readStamp s.now m.start) s.now,
        latchLate (readStamp s.now m.start) (noticeInto r slot m s))

/-- A message to the Source Table is answered NOT-PRESENT, with nothing changed, for an ABSENT
slot, and by its own rule for a PRESENT one (R8, R155). -/
def answerIfPresent (slot : Slot) (f : State → Reply × State) (s : State) : Reply × State :=
  match (getLink slot s).effective with
  | .absent => (.notPresent, s)
  | .present => f s

/-- The record an AMEND makes of the record it matches (R15). -/
def amendRecord (m : AmendFields) (s : State) (v : SourceRecord) : SourceRecord :=
  let start := match m.start with
    | some st => readStamp s.now st
    | none => v.start
  { v with
    start := start
    scale := match m.scale with
      | some sc => sc.toInt
      | none => v.scale
    late := decide (InsideLead start s.now) }

/-- The check of R15 that an AMEND of a PENDING record fails, as its reply. -/
def amendRefusal (m : AmendFields) (s : State) (v : SourceRecord) : Option Reply :=
  match m.start with
  | none => none
  | some st =>
    if After (readStamp s.now st) (s.now + farLimit) then some .tooFar
    else if AtOrBefore (readStamp s.now st + periods v.length + periods 15) s.now then some .stale
    else none

/-- An AMEND of a PENDING record is applied as one change (R15). -/
def amendInto (r : RecordNo) (m : AmendFields) (s : State) : Reply × State :=
  let v := amendRecord m s (getRecord r s)
  (leadReply v.start s.now, latchLate v.start (settleRecord r (setRecord r v s)))

/-- The answer to an AMEND from a PRESENT slot (R14, R15). -/
def amendPresent (slot : Slot) (m : AmendFields) (s : State) : Reply × State :=
  match findTag slot m.tag s with
  | none => (.unknownTag, s)
  | some r =>
    match (getRecord r s).state with
    | .pending =>
      match amendRefusal m s (getRecord r s) with
      | some reply => (reply, s)
      | none => amendInto r m s
    | _ => (.tooLate, s)

/-- The answer to a WITHDRAW from a PRESENT slot (R16). -/
def withdrawPresent (slot : Slot) (tag : Tag) (s : State) : Reply × State :=
  match findTag slot tag s with
  | none => (.unknownTag, s)
  | some r =>
    match (getRecord r s).state with
    | .pending => (.taken, retire r s)
    | .running =>
      (.taken, settleRecord r (setRecord r { getRecord r s with cut := some s.now } s))
    | _ => (.alreadyEnded, s)

/-- The cut a CLOSE gives: the lesser of T_end and the present E, and no earlier than start (R17).
-/
def closeCut (v : SourceRecord) (tEnd : Time) : Time :=
  let c := if Before tEnd v.endPoint then tEnd else v.endPoint
  if Before c v.start then v.start else c

/-- The answer to a CLOSE from a PRESENT slot (R17). -/
def closePresent (slot : Slot) (tag : Tag) (stamp : Half) (s : State) : Reply × State :=
  match findTag slot tag s with
  | none => (.unknownTag, s)
  | some r =>
    match (getRecord r s).state with
    | .pending => (.notRunning, s)
    | .running =>
      (.taken, settleRecord r
        (setRecord r
          { getRecord r s with cut := some (closeCut (getRecord r s) (readStamp s.now stamp)) } s))
    | _ => (.alreadyEnded, s)

/-! ### The arrival of a profile (R20) -/

/-- A provisional record's length is fixed and its state set at once (R20). -/
def fixRecord (id : ProfileId) (profileLength : Nat) (s : State) (r : RecordNo) : State :=
  if isLive (getRecord r s) ∧ (getRecord r s).profile = id ∧ (getRecord r s).provisional then
    settleRecord r
      (setRecord r
        { getRecord r s with
          length := confirmedLength (getRecord r s).limit profileLength
          provisional := false } s)
  else s

/-- Every live provisional record naming the profile is fixed (R20). -/
def fixRecords (id : ProfileId) (profileLength : Nat) (s : State) : State :=
  (List.finRange 128).foldl (fixRecord id profileLength) s

/-! ### Looking up the table (R27, R28) -/

/-- A live record as SOURCE-QUERY returns it (R27). -/
def recordReport (r : RecordNo) (s : State) : RecordReport :=
  ⟨r, getRecord r s, (getRecord r s).endPoint⟩

/-- The response of SOURCE-QUERY (R27). DEDUCED (assumption 9): the bytes that the frame's form does
not use, which R176 has the sender send as 0, are ignored whatever they are: slot and tag under form
0, the number under form 1. The response for a FREE record carries the chassis time too, as R27 says
of the response (assumption 9). The answers BAD-ARGUMENT and NO-SUCH-RECORD carry none: R27 does not
say whether they do (DESIGN CHOICE, assumption 9). -/
def sourceQueryResponse (a : SourceQueryArgs) (s : State) : Response :=
  match a.form.toNat with
  | 0 =>
    match recordOf a.number with
    | none => bare .badArgument
    | some r =>
      if isLive (getRecord r s) then okWith (.liveRecord s.now (recordReport r s))
      else okWith (.freeRecord s.now r)
  | 1 =>
    match slotOf a.slot, tagOf a.tag with
    | some slot, some tag =>
      match findTag slot tag s with
      | some r => okWith (.liveRecord s.now (recordReport r s))
      | none => bare .noSuchRecord
    | _, _ => bare .badArgument
  | _ => bare .badArgument

/-- SOURCE-QUERY (R27): executes at once and changes no record, count or flag. -/
def execSourceQuery (p : Payload SourceQueryArgs) (s : State) : Host.Outcome State Fault Refusal :=
  manage p (fun a s => respond (sourceQueryResponse a s) s) s

/-- SOURCE-LIST is judged and waits for a grant (R28). -/
def sourceList (a : SourceListArgs) (s : State) : State :=
  match recordOf a.first, optionalSlotOf a.slotChoice a.slot with
  | some first, some slot => execute (.sourceList first slot) s
  | _, _ => respond (bare .badArgument) s

/-- SOURCE-LIST (R28). -/
def execSourceList (p : Payload SourceListArgs) (s : State) : Host.Outcome State Fault Refusal :=
  manage p sourceList s

/-- The live records a SOURCE-LIST may list, ascending (R28). -/
def listable (first : RecordNo) (slot : Option Slot) (s : State) : List RecordNo :=
  (liveRecords s).filter fun r =>
    decide (first ≤ r) && (match slot with
      | none => true
      | some sl => decide ((getRecord r s).slot = sl))

/-- A record's entry in a SOURCE-LIST response (R28). -/
def sourceEntry (s : State) (r : RecordNo) : SourceEntry :=
  let v := getRecord r s
  ⟨r, v.state, v.slot, v.tag, v.profile, v.provisional⟩

/-- The continuation: the number following the last listed, if more qualify (R28). -/
def continuation (l : List RecordNo) : Option Nat :=
  if l.length ≤ 32 then none else (l.take 32).getLast?.map fun r => r.val + 1

/-- The snapshot a SOURCE-LIST response is assembled from (R28). -/
def sourceListResponse (first : RecordNo) (slot : Option Slot) (s : State) : Response :=
  okWith (.sources s.now s.store.active
    (((listable first slot s).take 32).map (sourceEntry s)) (continuation (listable first slot s)))

/-- The grant of a waiting SOURCE-LIST (R28, R64). -/
def sourceListGrant (s : State) : State :=
  match s.port.executing with
  | some (.sourceList first slot) =>
    if portMayBeGranted s then finish (sourceListResponse first slot s) (portAccess s) else s
  | _ => s

/-- SOURCE-LIST-GRANT (R28). -/
def execSourceListGrant (s : State) : Host.Outcome State Fault Refusal :=
  afterEvents sourceListGrant s

/-- RECORD-START-REACHED (R3). -/
def execRecordStartReached (r : RecordNo) (s : State) : Host.Outcome State Fault Refusal :=
  running (recordStart r) s

/-- RECORD-END-REACHED (R3). -/
def execRecordEndReached (r : RecordNo) (s : State) : Host.Outcome State Fault Refusal :=
  running (recordEnd r) s

/-- RETIREMENT (R3, R5). -/
def execRetirement (r : RecordNo) (s : State) : Host.Outcome State Fault Refusal :=
  running (recordRetirement r) s

end Sys2Proof.Machine
end

