-- ==== Sys2Proof/Machine/ProfileCache.lean ====
section
/-! DEFINITION. The Profile Cache (spec/02): the fetch, its start and its two completions, the
commands PRELOAD, RETRY, DROP and CACHE-READ, and the lending of the profile memory port. -/

namespace Sys2Proof.Machine

/-! ### The read transaction (R29, R31, R32) -/

/-- The byte address of a profile's page (R29). -/
def pageAddress (id : ProfileId) : BitVec 24 := BitVec.ofNat 24 (id.val * 1024)

/-- What a fetch clocks out before its dummy clocks: the read instruction and the page's address
(R31). -/
def readInstruction (id : ProfileId) : List Byte :=
  [0x3E, (pageAddress id).extractLsb' 16 8, (pageAddress id).extractLsb' 8 8,
    (pageAddress id).extractLsb' 0 8]

/-- The serial clocks of a fetch that reads n bytes of its page: 8 for instruction and address, 8
dummy, 2 for each byte (R31). -/
def fetchClocks (n : Nat) : Nat := 16 + 2 * n

/-- The time a fetch takes, in periods of the 100 MHz internal clock (R31, R32). -/
def fetchDuration (f : Flight) (n : Nat) : Nat := f.divider * fetchClocks n

/-- A byte on the four data lanes: two nibbles, the high one first (R31). -/
def nibbles (b : Byte) : List (BitVec 4) := [b.extractLsb' 4 4, b.extractLsb' 0 4]

/-- The bit of a nibble that a data lane carries: lane 3 the most significant (R31). -/
def laneBit (n : BitVec 4) (lane : Fin 4) : Bool := n.getLsbD lane.val

/-- What the four data lanes carry at one serial clock of a read: a nibble from the part, nothing,
or a nibble from the memory (R31). -/
inductive LaneClock where
  | out (n : BitVec 4)
  | dummy
  | input (n : BitVec 4)
  deriving DecidableEq, Repr

/-- The clocks of a read transaction that clocks in these bytes of a profile's page: instruction and
address, eight dummy clocks, the bytes (R31). -/
def readTransaction (id : ProfileId) (page : List Byte) : List LaneClock :=
  ((readInstruction id).flatMap nibbles).map .out ++ List.replicate 8 .dummy
    ++ (page.flatMap nibbles).map .input

/-- While the port is not lent the part holds select low through a read and high otherwise; while
lent it drives neither (R31, R48). -/
def portSelect (s : State) : Option Bool :=
  match s.cache.port with
  | .lent => none
  | _ => some s.cache.flight.isNone

/-- What the part does with the memory clock (R31, R32, R48). -/
inductive ClockLine where
  /-- held low -/
  | low
  /-- the internal clock divided by this, through a read -/
  | running (divider : Nat)
  /-- high impedance -/
  | released
  deriving DecidableEq, Repr

/-- The memory clock: low between transactions, at the fetch's divider through one, and released
while the port is lent (R31, R32, R48, R49, R50). -/
def memoryClock (s : State) : ClockLine :=
  match s.cache.port, s.cache.flight with
  | .lent, _ => .released
  | _, none => .low
  | _, some f => .running f.divider

/-- The part has released the four data lanes to high impedance: while the port is lent (R48).
DESIGN CHOICE (assumption 18): R31 says of a port that is not lent only what select and clock do
between transactions; here its lanes do not count as released then. -/
def lanesReleased (s : State) : Bool := decide (s.cache.port = .lent)

/-! ### Fetch start (R38)

The start itself stands in Sys2Proof/Machine/Ops.lean, since it comes before every command that
follows the moment at which its conditions hold. -/

/-- FETCH-START (R38). -/
def execFetchStart (s : State) : Host.Outcome State Fault Refusal := afterEvents fetchStart s

/-! ### Completion (R40, R41, R47, R48) -/

/-- The port becomes LENT, so select, clock and data lanes are released and PMLENT is high
(`portSelect`, `memoryClock`, `lanesReleased`, `pmlentHigh`); LEND-GRANTED is latched (R48). -/
def enterLent (s : State) : State :=
  latch .lendGranted { s with cache := { s.cache with port := .lent } }

/-- At a completion, good or bad, a port that is LEND-PENDING becomes LENT (R47). -/
def lendAtCompletion (s : State) : State :=
  match s.cache.port with
  | .lendPending => enterLent s
  | _ => s

/-- The slot becomes FILLED with the page's samples, most recently used, its count the number of
live records naming the id (R40). -/
def fillSlot (f : Flight) (page : List Int) (s : State) : State :=
  { s with cache := { s.cache with
      slots := tset s.cache.slots f.slot (.filled f.id page (liveNaming f.id s))
      lru := s.cache.lru ++ [f.slot]
      flight := none } }

/-- A good completion (R40): the slot is filled, the provisional records naming the id are fixed,
and a pending lend takes place. -/
def completeGood (f : Flight) (page : List Int) (s : State) : State :=
  lendAtCompletion (fixRecords f.id page.length (fillSlot f page s))

/-- A page of 1 to 256 samples; no other page is good (R30). -/
def pageLengthOk (page : List Half) : Bool :=
  decide (1 ≤ page.length) && decide (page.length ≤ 256)

/-- The fetch in flight ends with a good page. Without a fetch in flight, or with a page that cannot
be good, there is no such completion. -/
def fetchCompleteGood (page : List Half) (s : State) : State :=
  match s.cache.flight with
  | some f => if pageLengthOk page then completeGood f (page.map BitVec.toInt) s else s
  | none => s

/-- FETCH-COMPLETE-GOOD (R40). -/
def execFetchCompleteGood (page : List Half) (s : State) : Host.Outcome State Fault Refusal :=
  afterEvents (fetchCompleteGood page) s

/-- A bad completion (R41): the slot becomes EMPTY, the id joins the unusable set, FETCH-FAIL is
latched, and a pending lend takes place. -/
def completeBad (f : Flight) (s : State) : State :=
  lendAtCompletion (latch .fetchFail
    { s with cache := { s.cache with
        slots := tset s.cache.slots f.slot .empty
        unusable := tset s.cache.unusable f.id true
        flight := none } })

/-- The fetch in flight ends with a bad page; without one there is no such completion. -/
def fetchCompleteBad (s : State) : State :=
  match s.cache.flight with
  | some f => completeBad f s
  | none => s

/-- FETCH-COMPLETE-BAD (R41). -/
def execFetchCompleteBad (s : State) : Host.Outcome State Fault Refusal :=
  afterEvents fetchCompleteBad s

/-! ### Commands on the cache (R43 to R46) -/

/-- A command that names a profile id: an id above 511 is answered BAD-ARGUMENT (2.6). -/
def withProfile (h : Half) (f : ProfileId → State → State) (s : State) : State :=
  match profileOf h with
  | some id => f id s
  | none => respond (bare .badArgument) s

/-- PRELOAD of an id (R43). -/
def preloadId (id : ProfileId) (s : State) : State :=
  if unusable id s then respond (bare .profileBad) s
  else if !absentProfile id s then respond okResponse s
  else if queueFull s then respond (bare .busy) s
  else respond okResponse (enqueue id s)

/-- PRELOAD (R43). -/
def execPreload (p : Payload Half) (s : State) : Host.Outcome State Fault Refusal :=
  manage p (fun h => withProfile h preloadId) s

/-- An id leaves the unusable set (R37, R44). -/
def makeUsable (id : ProfileId) (s : State) : State :=
  { s with cache := { s.cache with unusable := tset s.cache.unusable id false } }

/-- RETRY of an id (R44). -/
def retryId (id : ProfileId) (s : State) : State :=
  if !unusable id s then respond okResponse s
  else if liveNaming id s = 0 then respond okResponse (makeUsable id s)
  else if queueFull s then respond (bare .busy) s
  else respond okResponse (enqueue id (makeUsable id s))

/-- RETRY (R44). -/
def execRetry (p : Payload Half) (s : State) : Host.Outcome State Fault Refusal :=
  manage p (fun h => withProfile h retryId) s

/-- A slot becomes EMPTY and leaves the LRU order (R34). -/
def emptySlot (c : CacheNo) (s : State) : State :=
  { s with cache := { s.cache with
      slots := tset s.cache.slots c .empty
      lru := s.cache.lru.filter fun d => decide (d ≠ c) } }

/-- DROP of an id (R45). -/
def dropId (id : ProfileId) (s : State) : State :=
  if inFlight id s then respond (bare .inUse) s
  else match residentSlot id s with
    | none => respond okResponse s
    | some c =>
      if (tget s.cache.slots c).replaceable then respond okResponse (emptySlot c s)
      else respond (bare .inUse) s

/-- What has come before a DROP: a fetch start that would choose the very slot it names yields to it
(R45). -/
def beforeDrop (p : Payload Half) (s : State) : State :=
  match p with
  | .wrongLength => takeMoment s
  | .fields h =>
    match profileOf h with
    | some id => takeMomentFor id s
    | none => takeMoment s

/-- DROP (R45). -/
def execDrop (p : Payload Half) (s : State) : Host.Outcome State Fault Refusal :=
  manageAfter (beforeDrop p) p (fun h => withProfile h dropId) s

/-- A cache slot as CACHE-READ reports it (R46). -/
def CacheSlot.report : CacheSlot → CacheSlotReport
  | .empty => .empty
  | .filling id => .filling id
  | .filled id p n => .filled id p.length n

/-- The snapshot of CACHE-READ (R46). -/
def cacheReport (s : State) : CacheReport where
  time := s.now
  slots := s.cache.slots.map CacheSlot.report
  lru := s.cache.lru
  queue := s.cache.queue
  port := s.cache.port
  inFlight := s.cache.flight.map (·.id)
  unusable := s.cache.unusable

/-- CACHE-READ (R46). -/
def execCacheRead (p : Payload Unit) (s : State) : Host.Outcome State Fault Refusal :=
  manage p (fun _ s => respond (okWith (.cache (cacheReport s))) s) s

/-! ### Lending (R47 to R49) -/

/-- LEND (R47). -/
def lendPort (s : State) : State :=
  match s.cache.port with
  | .owned =>
    match s.cache.flight with
    | none => respond (okWith (.port .lent)) (enterLent s)
    | some _ =>
      respond (okWith (.port .lendPending))
        { s with cache := { s.cache with port := .lendPending } }
  | _ => respond (bare .alreadyLent) s

/-- LEND (R47). -/
def execLend (p : Payload Unit) (s : State) : Host.Outcome State Fault Refusal :=
  manage p (fun _ => lendPort) s

/-- A slot as a RECLAIM from LENT leaves it: every FILLED slot with count 0 becomes EMPTY (R49). -/
def CacheSlot.reclaimed (c : CacheSlot) : CacheSlot := if c.replaceable then .empty else c

/-- RECLAIM from LENT: the port is OWNED, so the part drives select high and clock low and PMLENT is
low (`portSelect`, `memoryClock`, `pmlentHigh`); the count-zero slots are emptied and leave the LRU
order (R49). -/
def reclaimLent (s : State) : State :=
  { s with cache := { s.cache with
      port := .owned
      slots := s.cache.slots.map CacheSlot.reclaimed
      lru := s.cache.lru.filter fun c => !(tget s.cache.slots c).replaceable } }

/-- RECLAIM (R49). -/
def reclaimPort (s : State) : State :=
  match s.cache.port with
  | .lent => respond okResponse (reclaimLent s)
  | .lendPending => respond okResponse { s with cache := { s.cache with port := .owned } }
  | .owned => respond (bare .notLent) s

/-- RECLAIM (R49). -/
def execReclaim (p : Payload Unit) (s : State) : Host.Outcome State Fault Refusal :=
  manage p (fun _ => reclaimPort) s

end Sys2Proof.Machine
end

