-- ==== Sys2Proof/Machine/CouplingStore.lean ====
section
/-! DEFINITION. The Coupling Store (spec/03): LIST-WRITE with its checks and its grant, LIST-READ,
CAPTURE, the swap commands, and the one access that carries out a gain update (R66). -/

namespace Sys2Proof.Machine

/-- The entries of a bank's pool (R53). -/
def poolSize : Nat := 1536

/-- A list replaced whole in a bank, with its pool count: the count − m + n (R54, R57). -/
def Bank.replaceList (b : Bank) (source : Slot) (l : List Entry) : Bank where
  lists := tset b.lists source l
  pool := b.pool - (tget b.lists source).length + l.length

/-! ### LIST-WRITE (R55 to R57) -/

/-- The delays above 15 as written (R56). -/
def clippedDelays (l : List RawEntry) : Nat :=
  (l.filter fun e => decide (15 < e.delay.toNat)).length

/-- A delay as stored: one above 15 is replaced by 15 (R56). -/
def clipDelay (d : Byte) : Delay := ⟨min d.toNat 15, by omega⟩

/-- An entry with a valid target, its delay clipped (R53, R56). -/
def entryOf (t : Target) (e : RawEntry) : Entry := ⟨t, e.gain.toInt, clipDelay e.delay⟩

/-- The fault of the entry at a position, given the target of the entry before it (R56): the checks
in the order of the table. -/
def entryFault (source : Slot) (before : Option Nat) (target : Nat) : Option ListFault :=
  if 112 ≤ target then some .range
  else if target = source.val then some .self
  else if before = some target then some .duplicate
  else if (match before with
      | some b => decide (target < b)
      | none => false) then some .order
  else none

/-- The entries from a position on, or the first fault with its position (R56). -/
def validateFrom (source : Slot) :
    Nat → Option Nat → List RawEntry → Except (ListFault × Option Nat) (List Entry)
  | _, _, [] => .ok []
  | pos, before, e :: rest =>
    match entryFault source before e.target.toNat, targetOf e.target with
    | some f, _ => .error (f, some pos)
    | none, none => .error (.range, some pos)
    | none, some t =>
      match validateFrom source (pos + 1) (some e.target.toNat) rest with
      | .ok l => .ok (entryOf t e :: l)
      | .error f => .error f

/-- A list validated whole (R56). -/
def validateList (source : Slot) (l : List RawEntry) :
    Except (ListFault × Option Nat) (List Entry) :=
  if 24 < l.length then .error (.length, none) else validateFrom source 0 none l

/-- The pool test (R57): the count − m + n exceeds 1536. -/
def poolExceeded (b : Bank) (source : Slot) (n : Nat) : Bool :=
  decide (poolSize < b.pool - (tget b.lists source).length + n)

/-- LIST-WRITE is judged when it is taken (R55). -/
def listWrite (a : ListWriteArgs) (s : State) : State :=
  match slotOf a.source with
  | none => respond (bare .badArgument) s
  | some source =>
    if s.store.swapPending then respond (bare .swapPending) s
    else match validateList source a.entries with
      | .error (f, pos) => respond ⟨.badList, .badList f pos⟩ s
      | .ok l =>
        if poolExceeded (s.store.bank s.store.staging) source l.length then
          respond (bare .poolFull) s
        else execute (.listWrite source l (clippedDelays a.entries)) s

/-- LIST-WRITE (R55). -/
def execListWrite (p : Payload ListWriteArgs) (s : State) : Host.Outcome State Fault Refusal :=
  manage p listWrite s

/-- A list of the staging bank replaced whole (R57). -/
def writeStaging (source : Slot) (l : List Entry) (s : State) : State :=
  setStore (s.store.setBank s.store.staging
    ((s.store.bank s.store.staging).replaceList source l)) s

/-- The grant of a waiting LIST-WRITE (R57, R64). -/
def listWriteGrant (s : State) : State :=
  match s.port.executing with
  | some (.listWrite source l clipped) =>
    if portMayBeGranted s then
      finish (okWith (.listWritten s.store.staging l.length clipped
        ((s.store.bank s.store.staging).replaceList source l).pool))
        (portAccess (writeStaging source l s))
    else s
  | _ => s

/-- LIST-WRITE-GRANT (R57). -/
def execListWriteGrant (s : State) : Host.Outcome State Fault Refusal :=
  afterEvents listWriteGrant s

/-! ### LIST-READ (R58) -/

/-- LIST-READ is judged and waits for a grant (R58). -/
def listRead (a : ListReadArgs) (s : State) : State :=
  match bankOf a.bank, slotOf a.source with
  | some bank, some source => execute (.listRead bank source) s
  | _, _ => respond (bare .badArgument) s

/-- LIST-READ (R58). -/
def execListRead (p : Payload ListReadArgs) (s : State) : Host.Outcome State Fault Refusal :=
  manage p listRead s

/-- The response of a LIST-READ at its grant (R58). -/
def listReadResponse (bank : BankName) (source : Slot) (s : State) : Response :=
  okWith (.list bank (decide (bank = s.store.active)) s.now (s.store.bank bank).pool
    (tget (s.store.bank bank).lists source))

/-- The grant of a waiting LIST-READ (R58, R64). -/
def listReadGrant (s : State) : State :=
  match s.port.executing with
  | some (.listRead bank source) =>
    if portMayBeGranted s then finish (listReadResponse bank source s) (portAccess s) else s
  | _ => s

/-- LIST-READ-GRANT (R58). -/
def execListReadGrant (s : State) : Host.Outcome State Fault Refusal := afterEvents listReadGrant s

/-! ### CAPTURE (R59) -/

/-- CAPTURE is refused SWAP-PENDING, or starts (R59). -/
def capture (s : State) : State :=
  if s.store.swapPending then respond (bare .swapPending) s else execute .captureEmpty s

/-- CAPTURE (R59). -/
def execCapture (p : Payload Unit) (s : State) : Host.Outcome State Fault Refusal :=
  manage p (fun _ => capture) s

/-- CAPTURE's first grant: every staging list and the staging pool are emptied (R59). -/
def captureEmptyGrant (s : State) : State :=
  match s.port.executing with
  | some .captureEmpty =>
    if portMayBeGranted s then
      execute (.captureCopy 0) (portAccess (setStore (s.store.setBank s.store.staging emptyBank) s))
    else s
  | _ => s

/-- CAPTURE-EMPTY-GRANT (R59). -/
def execCaptureEmptyGrant (s : State) : Host.Outcome State Fault Refusal :=
  afterEvents captureEmptyGrant s

/-- An access that copies one list of the active bank into staging as the same source's list
(R59). -/
def copyList (source : Slot) (s : State) : State :=
  portAccess (writeStaging source (tget (s.store.bank s.store.active).lists source) s)

/-- CAPTURE's response after its last copy (R59). -/
def capturedResponse (s : State) : Response :=
  okWith (.captured s.store.staging (s.store.bank s.store.staging).pool)

/-- Each of CAPTURE's next 96 grants, in source order; it completes after the last (R59). -/
def captureCopyGrant (s : State) : State :=
  match s.port.executing with
  | some (.captureCopy source) =>
    if portMayBeGranted s then
      match below 96 (source.val + 1) with
      | some next => execute (.captureCopy next) (copyList source s)
      | none => finish (capturedResponse (copyList source s)) (copyList source s)
    else s
  | _ => s

/-- CAPTURE-COPY-GRANT (R59). -/
def execCaptureCopyGrant (s : State) : Host.Outcome State Fault Refusal :=
  afterEvents captureCopyGrant s

/-! ### Swapping (R60 to R62) -/

/-- The swap-pending flag set or cleared (R52). -/
def setSwapPending (b : Bool) (s : State) : State :=
  setStore { s.store with swapPending := b } s

/-- SWAP-REQUEST (R60). -/
def swapRequest (s : State) : State :=
  if s.store.swapPending then respond (bare .swapPending) s
  else respond okResponse (setSwapPending true s)

/-- SWAP-REQUEST (R60). -/
def execSwapRequest (p : Payload Unit) (s : State) : Host.Outcome State Fault Refusal :=
  manage p (fun _ => swapRequest) s

/-- SWAP-CANCEL (R62). -/
def swapCancel (s : State) : State :=
  if s.store.swapPending then respond okResponse (setSwapPending false s)
  else respond (bare .notPending) s

/-- SWAP-CANCEL (R62). -/
def execSwapCancel (p : Payload Unit) (s : State) : Host.Outcome State Fault Refusal :=
  manage p (fun _ => swapCancel) s

/-! ### Prediction reads and gain updates (R65, R66) -/

/-- The entry of a list for a target (R65). -/
def findEntry (l : List Entry) (t : Target) : Option Entry :=
  l.find? fun e => decide (e.target = t)

/-- What a prediction read returns: the gain and delay as they stand, or the entry's absence
(R65). -/
def readCoupling (c : CouplingStore) (bank : BankName) (source : Slot) (t : Target) :
    Option Coupling :=
  (findEntry (tget (c.bank bank).lists source) t).map fun e => ⟨e.gain, e.delay⟩

/-- The unclamped gain of an update (R66). -/
def GainUpdate.unclamped (u : GainUpdate) (g : Int) : Int :=
  if u.up then g + u.mu else g - u.mu

/-- An update is clipped when the unclamped gain lies beyond the bound (R66). -/
def GainUpdate.clips (u : GainUpdate) (g : Int) : Bool :=
  decide (clip u.gmax (u.unclamped g) ≠ u.unclamped g)

/-- The new gain: the unclamped gain, or the bound it lies beyond (R66). -/
def GainUpdate.newGain (u : GainUpdate) (g : Int) : Int := clip u.gmax (u.unclamped g)

/-- The gain of a list's entry for a target, replaced; nothing else of the list changes (R53). -/
def setGain (l : List Entry) (t : Target) (g : Int) : List Entry :=
  l.map fun e => if e.target = t then { e with gain := g } else e

/-- What the store reports of an update (R66). -/
inductive UpdateReport where
  | dropped
  | skipped
  | written (clipped : Bool)
  deriving DecidableEq, Repr

/-- The report of an update at its grant (R66). -/
def updateReport (c : CouplingStore) (bank : BankName) (t : Target) (u : GainUpdate) :
    UpdateReport :=
  if bank ≠ c.active then .dropped
  else match findEntry (tget (c.bank bank).lists u.source) t with
    | none => .skipped
    | some e => .written (u.clips e.gain)

/-- The store after an update at its grant: one entry's gain stepped, clamped and written, if the
bank is still active and the entry exists (R66). -/
def applyUpdate (c : CouplingStore) (bank : BankName) (t : Target) (u : GainUpdate) :
    CouplingStore :=
  if bank ≠ c.active then c
  else match findEntry (tget (c.bank bank).lists u.source) t with
    | none => c
    | some e =>
      c.setBank bank
        { c.bank bank with
          lists := tset (c.bank bank).lists u.source
            (setGain (tget (c.bank bank).lists u.source) t (u.newGain e.gain)) }

end Sys2Proof.Machine
end

