-- ==== Sys2Proof/Machine/Prediction.lean ====
section
/-! DEFINITION. Prediction and feed assembly (spec/04): the snapshot and beginning of an evaluation,
its list reads (the commands PREDICTION-LIST-READ and EVALUATION-END themselves, which a slot's
window has to have come to, stand in Sys2Proof/Machine/RowLinks.lean), the terms and sums, the
finishing of a slot's block, the evaluation record and the target's ring. -/

namespace Sys2Proof.Machine

/-! ### The snapshot (R70) -/

/-- A live record as a snapshot holds it (R70). -/
def snapRecord (s : State) (r : RecordNo) : SnapRecord :=
  let v := getRecord r s
  { number := r, slot := v.slot, samples := residentSamples v.profile s, scale := v.scale
    start := v.start, length := v.length, endPoint := v.endPoint }

/-- An ambient tap as a slot evaluation's snapshot holds it (R70, R82). -/
def tapSnap (s : State) (t : Tap) : TapSnap :=
  let st := getStation t.station s
  ⟨t.weight, decide (st.effective = .locked), decide (0 < st.shockHold), st.y2⟩

/-- The slot part of a snapshot (R70). -/
def slotSnap (slot : Slot) (s : State) : SlotSnap :=
  let g := tget s.settings.slots slot
  { limit := g.feedLimit
    taps := (g.tap1.toList ++ g.tap2.toList).map (tapSnap s)
    suppression := (getSuppression slot s).state
    drive := (getLink slot s).drive }

/-- The snapshot an evaluation of a target takes at its beginning (R70). -/
def snapshot (t : Target) (s : State) : Snapshot where
  records := (liveRecords s).map (snapRecord s)
  blanking := s.settings.global.blanking
  slotPart := (slotOfTarget t).map fun slot => slotSnap slot s

/-- The source slots that hold a live record of the snapshot, ascending (R73). -/
def sourcesOf (sn : Snapshot) : List Slot :=
  (List.finRange 96).filter fun slot => sn.records.any fun r => decide (r.slot = slot)

/-- An evaluation at its beginning (R70, R73): one read waits for each source slot with a live
record; without one its bank is the bank active now. -/
def newEvaluation (t : Target) (f : Frame) (s : State) : Evaluation where
  target := t
  frame := f
  bank := if sourcesOf (snapshot t s) = [] then some s.store.active else none
  snap := snapshot t s
  done := []
  waiting := sourcesOf (snapshot t s)

/-- An evaluation among those in flight, in ascending order of target. -/
def insertEvaluation (e : Evaluation) : List Evaluation → List Evaluation
  | [] => [e]
  | x :: xs =>
    if e.target < x.target then e :: x :: xs
    else if e.target = x.target then e :: xs
    else x :: insertEvaluation e xs

/-- An evaluation of a target begins (R70 to R72). Where no read was still to be made, its first one
is presented at once. -/
def beginEvaluation (t : Target) (f : Frame) (s : State) : State :=
  setEvaluations (insertEvaluation (newEvaluation t f s) s.prediction.evaluations)
    (setGaps (s.prediction.gap && hasReads s) s.adaptation.gap s)

/-! ### List reads (R63, R65, R73) -/

/-- The bank an evaluation reads: fixed at its first read as the bank then active (R63). -/
def Evaluation.bankAt (e : Evaluation) (c : CouplingStore) : BankName := e.bank.getD c.active

/-- The evaluation after one of its reads is granted (R65). -/
def Evaluation.granted (e : Evaluation) (c : CouplingStore) (source : Slot) (more : List Slot) :
    Evaluation :=
  { e with
    bank := some (e.bankAt c)
    done := e.done ++ [⟨source, readCoupling c (e.bankAt c) source e.target⟩]
    waiting := more }

/-- The grant serves the waiting read of the evaluation with the lowest target (R73). -/
def grantRead (c : CouplingStore) : List Evaluation → List Evaluation
  | [] => []
  | e :: rest =>
    match e.waiting with
    | source :: more => e.granted c source more :: rest
    | [] => e :: grantRead c rest

/-- The target of the evaluation whose read the next grant serves (R73). -/
def nextReader (s : State) : Option Target :=
  (s.prediction.evaluations.find? fun e => decide (e.waiting ≠ [])).map (·.target)

/-- One grant to the Prediction Engine; none is made where no read waits (R64, R65). -/
def predictionRead (s : State) : State :=
  if hasReads s then
    setGaps true false (setEvaluations (grantRead s.store s.prediction.evaluations) s)
  else s

/-- An evaluation with all the reads it still waits for made at once. -/
def Evaluation.readAll (e : Evaluation) (c : CouplingStore) : Evaluation :=
  match e.waiting with
  | [] => e
  | w => { e with
      bank := some (e.bankAt c)
      done := e.done ++ w.map fun source => ⟨source, readCoupling c (e.bankAt c) source e.target⟩
      waiting := [] }

/-! ### Contributors and their terms (R76 to R80) -/

/-- The coupling that an evaluation read for a source slot, or its absence (R73). -/
def couplingOf (reads : List ListRead) (source : Slot) : Option Coupling :=
  (reads.find? fun x => decide (x.source = source)).bind (·.entry)

/-- The contributors: the live records whose source's list holds an entry for the target, in
ascending record number, each with the entry (R76). -/
def contributorsOf (e : Evaluation) : List (SnapRecord × Coupling) :=
  e.snap.records.filterMap fun r => (couplingOf e.done r.slot).map fun c => (r, c)

/-- Chassis sample i of frame f (R70). -/
def sampleTime (f : Frame) (i : Nat) : Time := firstSample f + periods i

/-- n − d: the instant at the source that reaches the target at n (R78). -/
def delayed (c : Coupling) (n : Time) : Time := n - periods c.delay.val

/-- The elapsed index e: n − start − d, modulo 2^32 and read as signed (R78). -/
def elapsed (r : SnapRecord) (c : Coupling) (n : Time) : Int := (delayed c n - r.start).toInt

/-- A record contributes at n when e lies from 0 to length − 1 and n − d is before E (R78). -/
def contributes (r : SnapRecord) (c : Coupling) (n : Time) : Bool :=
  decide (0 ≤ elapsed r c n) && decide (elapsed r c n < r.length)
    && decide (Before (delayed c n) r.endPoint)

/-- p(e): the profile's sample, and zero for a profile that is not resident (R77, R79). -/
def profileSample (r : SnapRecord) (c : Coupling) (n : Time) : Int :=
  match r.samples with
  | some p => p.getD (elapsed r c n).toNat 0
  | none => 0

/-- The term c(n) = p(e) × A × g ÷ 2^29, rounded to nearest with halves up; zero where the record
does not contribute (R78, R79). -/
def term (n : Time) (x : SnapRecord × Coupling) : Int :=
  if contributes x.1 x.2 n then
    divNearest (profileSample x.1 x.2 n * x.1.scale * x.2.gain) (2 ^ 29)
  else 0

/-- The predicted sum P(t, n) (R80). -/
def predictedSum (e : Evaluation) (i : Nat) : Int :=
  ((contributorsOf e).map (term (sampleTime e.frame i))).sum

/-- The eight predicted sums (R80, R87). -/
def predictedSums (e : Evaluation) : Vector Int 8 := Vector.ofFn fun i => predictedSum e i.val

/-- PARTIAL: at least one contributor's profile is not resident (R77). -/
def partialOf (e : Evaluation) : Bool := (contributorsOf e).any fun x => x.1.samples.isNone

/-! ### The contributors as recorded (R88 to R90) -/

/-- u(n): p(e) × A ÷ 2^15, rounded to nearest with halves up, where the record contributes, and 0
elsewhere (R89). -/
def unscaled (n : Time) (r : SnapRecord) (c : Coupling) : Int :=
  if contributes r c n then divNearest (profileSample r c n * r.scale) (2 ^ 15) else 0

/-- X: the sum of the eight u(n), divided by 8 and rounded toward zero (R89). -/
def frameDrive (f : Frame) (r : SnapRecord) (c : Coupling) : Int :=
  divTowardZero ((List.range 8).map fun i => unscaled (sampleTime f i) r c).sum 8

/-- A sample blanks a contributor: e lies from 0 to B − 1, or n − d is at or after E and before
E + B (R90). -/
def blanks (width : Nat) (n : Time) (r : SnapRecord) (c : Coupling) : Bool :=
  (decide (0 ≤ elapsed r c n) && decide (elapsed r c n < width))
    || (decide (AtOrAfter (delayed c n) r.endPoint)
      && decide (Before (delayed c n) (r.endPoint + periods width)))

/-- The blanked mark: any sample of the frame blanks the contributor (R90). -/
def blankedIn (width : Nat) (f : Frame) (r : SnapRecord) (c : Coupling) : Bool :=
  (List.range 8).any fun i => blanks width (sampleTime f i) r c

/-- A contributor as the record lists it (R88). -/
def recorded (e : Evaluation) (x : SnapRecord × Coupling) : Contributor where
  number := x.1.number
  source := x.1.slot
  x := frameDrive e.frame x.1 x.2
  blanked := blankedIn e.snap.blanking e.frame x.1 x.2

/-- The most contributors a record lists (R88). -/
def listedContributors : Nat := 16

/-- A suppression state that gates the slot's feed (R139). -/
def SuppressionState.gates : SuppressionState → Bool
  | .clear => false
  | .held => true
  | .awaitingClear => true

/-- The evaluation record of an evaluation that read a bank (R87, R88). -/
def evalRecord (e : Evaluation) (bank : BankName) : EvalRecord where
  frame := e.frame
  bank := bank
  sums := predictedSums e
  partialFlag := partialOf e
  suppressed := match e.snap.slotPart with
    | some p => p.suppression.gates
    | none => false
  parked := match e.snap.slotPart with
    | some p => decide (p.drive = .parked)
    | none => false
  overflow := decide (listedContributors < (contributorsOf e).length)
  contributors := ((contributorsOf e).take listedContributors).map (recorded e)

/-! ### Finishing a block (R82 to R85) -/

/-- What a tap adds: w × y2 ÷ 2^14 rounded to nearest, halves up, when the station is LOCKED and its
shock hold is not running, and 0 otherwise (R82). -/
def tapAddition (t : TapSnap) : Int :=
  if t.locked && !t.shockRunning then divNearest (t.weight * t.y2) (2 ^ 14) else 0

/-- The ambient term (R82). -/
def ambient (p : SlotSnap) : Int := (p.taps.map tapAddition).sum

/-- The slot's block: ambient term, clip, and the overrides (R82 to R84). -/
def slotBlock (p : SlotSnap) (sums : Vector Int 8) (partialFlag : Bool) : Block :=
  let raw := sums.map fun x => x + ambient p
  let clipped := raw.map (clip p.limit)
  if p.suppression.gates then ⟨zeroValues, false, false, true, false, partialFlag⟩
  else if p.drive = .parked then ⟨zeroValues, false, true, false, false, partialFlag⟩
  else ⟨clipped, false, false, false, decide (clipped ≠ raw), partialFlag⟩

/-- The block becomes ready in the slot's window (R71). -/
def Window.ready (b : Block) : Window → Window
  | .feedPhase m .evaluating => .feedPhase m (.ready b)
  | w => w

/-! ### The ring and the end of an evaluation (R91) -/

/-- A record written into a ring of three: it replaces the one written longest ago where the ring is
full (R91). -/
def pushRing (r : EvalRecord) (l : List EvalRecord) : List EvalRecord :=
  if l.length < 3 then l ++ [r] else l.tail ++ [r]

/-- The evaluation of a target in flight. -/
def findEvaluation (t : Target) (s : State) : Option Evaluation :=
  s.prediction.evaluations.find? fun e => decide (e.target = t)

/-- An evaluation ends: its record is written into the ring, and a slot's block is ready (R70,
R81, R91). -/
def endInto (e : Evaluation) (bank : BankName) (s : State) : State :=
  let s := setRing e.target (pushRing (evalRecord e bank) (getRing e.target s))
    (dropEvaluation e.target s)
  match slotOfTarget e.target, e.snap.slotPart with
  | some slot, some p =>
    modLink slot
      (fun l => { l with window := l.window.ready (slotBlock p (predictedSums e) (partialOf e)) }) s
  | _, _ => s

/-- An evaluation whose reads have all been granted ends (R70, R91). -/
def endOf (e : Evaluation) (s : State) : State :=
  match e.waiting, e.bank with
  | [], some bank => endInto e bank s
  | _, _ => s

/-- The evaluation of a target ends, if one is in flight and no read of it waits. -/
def evaluationEnd (t : Target) (s : State) : State :=
  match findEvaluation t s with
  | some e => endOf e s
  | none => s

/-- An evaluation of the target is in flight whose reads have all been granted: it can end. -/
def canEnd (t : Target) (s : State) : Bool :=
  (findEvaluation t s).any fun e => decide (e.waiting = []) && e.bank.isSome

/-- The reads that a target's evaluation needs, if any wait, are made. At each access the waiting
read of the evaluation with the lowest target is presented (R73), so the reads that wait for lower
targets are made before them. -/
def readThrough (t : Target) (s : State) : State :=
  if s.prediction.evaluations.any fun e => decide (e.target ≤ t) && decide (e.waiting ≠ []) then
    setGaps true false
      (setEvaluations (s.prediction.evaluations.map fun e =>
        if e.target ≤ t then e.readAll s.store else e) s)
  else s

/-- A target's evaluation in flight runs to its end: it ends before the slot's FEED values are sent
(R71), or before the boundary's sample period has passed (R72). -/
def finishEvaluation (t : Target) (s : State) : State :=
  if (findEvaluation t s).isSome then evaluationEnd t (readThrough t s) else s

/-- The station evaluations in flight run to their end (R72). -/
def finishStationEvaluations (s : State) : State :=
  (List.finRange 16).foldl (fun s k => finishEvaluation (stationTarget k) s) s

end Sys2Proof.Machine
end

