-- ==== Sys2Proof/Machine/Adaptation.lean ====
section
/-! DEFINITION. Adaptation (spec/05): residual arrivals, the postscaler, gain steps and their queue,
divergence and freezing, the ends of settle counts and divergence holds, and TARGET-READ. -/

namespace Sys2Proof.Machine

/-! ### Residual arrivals (R96 to R99) -/

/-- The common settings of a target (R95). -/
def targetSettings (t : Target) (s : State) : TargetSettings := tget s.settings.targets t

/-- The conditions under which an arrival is ignored (R99). `parkedStatus` is the drive state of
the STATUS that carried it. -/
def arrivalIgnored (t : Target) (r : EvalRecord) (parkedStatus : Bool) (s : State) : Bool :=
  (getAdapt t s).frozen || !(targetSettings t s).enabled || decide (0 < (getAdapt t s).hold)
    || decide (0 < (getAdapt t s).settle) || r.suppressed || r.parked
    || decide (r.bank ≠ s.store.active) || r.partialFlag || r.overflow || parkedStatus

/-- A listed contributor gives an update: not blanked, X not 0 and |X| at or above θ (R104). -/
def givesUpdate (theta : Nat) (c : Contributor) : Bool :=
  !c.blanked && decide (c.x ≠ 0) && decide (theta ≤ c.x.natAbs)

/-- The update a contributor gives: up when E and X have the same sign (R105). -/
def updateOf (g : TargetSettings) (residual : Int) (c : Contributor) : GainUpdate where
  source := c.source
  up := decide (0 < residual ↔ 0 < c.x)
  mu := g.mu
  gmax := g.gmax

/-- The updates of a step, in the order of the contributors (R104, R105). -/
def stepUpdates (g : TargetSettings) (theta : Nat) (residual : Int) (r : EvalRecord) :
    List GainUpdate :=
  if residual.natAbs < g.deadband ∨ residual = 0 then []
  else (r.contributors.filter (givesUpdate theta)).map (updateOf g residual)

/-- The update requests in the engine's queue (R94). -/
def queuedUpdates (l : List Step) : Nat := (l.map fun st => st.updates.length).sum

/-- The capacity of the queue of update requests (R94). -/
def updateCapacity : Nat := 256

/-- A step among those of its own moment, in ascending order of target (R94). -/
def insertStep (st : Step) : List Step → List Step
  | [] => [st]
  | x :: xs => if st.target < x.target then st :: x :: xs else x :: insertStep st xs

/-- A step's updates join the queue; one whose updates would take the queue above 256 queues none of
them and ends at once (R94). -/
def joinQueue (l : List Step) (st : Step) : List Step :=
  if updateCapacity < queuedUpdates l + st.updates.length then l else l ++ [st]

/-- The moment of a step that is now taken: the one that stands open, if the step is of it, and
otherwise one that finds the steps in flight as they are. -/
def momentOf (st : Step) (e : AdaptationEngine) : OpenMoment :=
  match e.openMoment with
  | some m => if m.moment = st.moment then m else ⟨st.moment, e.steps, []⟩
  | none => ⟨st.moment, e.steps, []⟩

/-- A moment with a step more taken at it. -/
def OpenMoment.take (st : Step) (m : OpenMoment) : OpenMoment :=
  { m with taken := insertStep st m.taken }

/-- The steps in flight once a moment's steps have joined the queue in ascending order of target,
whatever the order in which they were taken (R94). -/
def OpenMoment.queue (m : OpenMoment) : List Step := m.taken.foldl joinQueue m.before

/-- The moment stands open, and its steps are in flight. -/
def openMoment (m : OpenMoment) (s : State) : State :=
  { s with adaptation := { s.adaptation with steps := m.queue, openMoment := some m } }

/-- A step is taken: its updates are queued, in the order of R94; a step that issues none ends at
once (R104). -/
def queueStep (st : Step) (s : State) : State :=
  if st.updates = [] then s else openMoment ((momentOf st s.adaptation).take st) s

/-- The postscaler count set. -/
def setPostscaler (t : Target) (n : Nat) (s : State) : State :=
  modAdapt t (fun a => { a with postscaler := n }) s

/-- The step an arrival takes (R104, R105). -/
def stepFor (place : Nat) (t : Target) (residual : Int) (r : EvalRecord) (s : State) : Step where
  moment := ⟨s.now, place⟩
  target := t
  bank := r.bank
  updates := stepUpdates (targetSettings t s) s.settings.global.theta residual r
  clipped := false

/-- A counted arrival: it adds 1 to the postscaler count, and takes a step when the count is then at
or above the interval N (R103). -/
def countArrival (place : Nat) (t : Target) (residual : Int) (r : EvalRecord) (s : State) :
    State :=
  if (targetSettings t s).interval ≤ (getAdapt t s).postscaler + 1 then
    queueStep (stepFor place t residual r s) (setPostscaler t 0 s)
  else setPostscaler t ((getAdapt t s).postscaler + 1) s

/-- A residual arrival is judged (R99, R103). -/
def arrival (place : Nat) (t : Target) (residual : Int) (r : EvalRecord) (parkedStatus : Bool)
    (s : State) : State :=
  if arrivalIgnored t r parkedStatus s then s else countArrival place t residual r s

/-- A target's last residual set (R98). -/
def setLastResidual (t : Target) (residual : Int) (s : State) : State :=
  modAdapt t (fun a => { a with lastResidual := residual }) s

/-- The held record whose frame tag is the one given (R91, R96). -/
def matchTag (tag : Nat) (l : List EvalRecord) : Option EvalRecord :=
  l.find? fun r => decide (frameTag r.frame = tag)

/-- The held record of a frame (R92, R97). -/
def matchFrame (f : Frame) (l : List EvalRecord) : Option EvalRecord :=
  l.find? fun r => decide (r.frame = f)

/-- The residual of a STATUS from a PRESENT slot (R96, R98): it sets the last residual, and is an
arrival if a held record has the tag. -/
def statusResidual (slot : Slot) (residual : Int) (tag : Nat) (parkedStatus : Bool) (s : State) :
    State :=
  let s := setLastResidual (slotTarget slot) residual s
  match matchTag tag (getRing (slotTarget slot) s) with
  | some r => arrival (1 + position slot) (slotTarget slot) residual r parkedStatus s
  | none => s

/-- The mean residual a station hands over at the close of a frame (R97, R98). -/
def stationMean (k : Station) (f : Frame) (mean : Int) (s : State) : State :=
  let s := setLastResidual (stationTarget k) mean s
  if (getStation k s).effective = .locked ∧ (getStation k s).shockHold = 0 then
    match matchFrame f (getRing (stationTarget k) s) with
    | some r => arrival 0 (stationTarget k) mean r false s
    | none => s
  else s

/-! ### The end of a step and divergence (R106, R109 to R111) -/

/-- The steps of a target still in flight are cut off (R106, R111). -/
def cutSteps (t : Target) (s : State) : State :=
  setSteps [] (s.adaptation.steps.filter fun st => decide (st.target ≠ t)) s

/-- A divergence event (R109 to R111): outside a hold it is counted, and the third freezes the
target; inside a hold it restarts the hold. -/
def divergenceEvent (t : Target) (s : State) : State :=
  let d := s.settings.global.divergenceHold
  let s := latch .divergence s
  if 0 < (getAdapt t s).hold then modAdapt t (fun a => { a with hold := d, postscaler := 0 }) s
  else if 3 ≤ (getAdapt t s).divergence + 1 then
    cutSteps t (latch .frozen
      (modAdapt t
        (fun a => { a with divergence := 3, hold := d, postscaler := 0, frozen := true }) s))
  else
    modAdapt t
      (fun a => { a with divergence := a.divergence + 1, hold := d, postscaler := 0 }) s

/-- An update's report sets the step's clipped mark (R106). -/
def UpdateReport.marks : UpdateReport → Bool
  | .written clipped => clipped
  | _ => false

/-- The step after one of its updates has been reported: it goes on with the rest, or ends, and is
judged by its mark (R106, R109). -/
def reportUpdate (st : Step) (rest : List Step) (more : List GainUpdate) (mark : Bool)
    (s : State) : State :=
  match more with
  | [] =>
    if mark then divergenceEvent st.target (setSteps [] rest s) else setSteps [] rest s
  | _ => setSteps [{ st with updates := more, clipped := mark }] rest s

/-- The Adaptation Engine's access has ended; while its queue holds another update it has still to
present that one (R64, R94). -/
def updateEnded (s : State) : State := setGaps false (decide (s.adaptation.steps ≠ [])) s

/-- One grant to the Adaptation Engine, which the arbiter makes when no prediction read waits (R64):
the oldest update is carried out (R66) and reported. -/
def gainUpdate (s : State) : State :=
  if predictionWaits s then s
  else match s.adaptation.steps with
    | [] => s
    | st :: rest =>
      match st.updates with
      | [] => setSteps [] rest s
      | u :: more =>
        updateEnded (reportUpdate st rest more
          (st.clipped || (updateReport s.store st.bank st.target u).marks)
          (setStore (applyUpdate s.store st.bank st.target u) s))

/-- GAIN-UPDATE (R66). -/
def execGainUpdate (s : State) : Host.Outcome State Fault Refusal := afterEvents gainUpdate s

/-! ### The ends of settle counts and divergence holds (R102, R112) -/

/-- A count's fall by one. -/
def fall (n : Nat) : Nat := n - 1

/-- The fall of a settle count that was still due at this boundary (R102): from 1 it ends the
count. -/
def settleEnd (t : Target) (s : State) : State :=
  if s.boundary ≠ .quiet ∧ (getAdapt t s).settleDue then
    modAdapt t (fun a => { a with settle := fall a.settle, settleDue := false }) s
  else s

/-- SETTLE-END (R102). -/
def execSettleEnd (t : Target) (s : State) : Host.Outcome State Fault Refusal :=
  afterEvents (settleEnd t) s

/-- The fall of a divergence hold that was still due at this boundary (R112): where it reaches 0 the
hold ends, and the settle count is set to S and is not lowered at the same boundary (R102). DESIGN
CHOICE (assumption 23): with S = 0 the station's arrival after it at the same boundary is counted,
as R101 says of S = 0, where R100 says that it is ignored in either order. -/
def divergenceHoldEnd (t : Target) (s : State) : State :=
  if s.boundary ≠ .quiet ∧ (getAdapt t s).holdDue then
    if (getAdapt t s).hold = 1 then
      modAdapt t
        (fun a => { a with
          hold := 0, holdDue := false, settle := s.settings.global.settle, settleDue := false }) s
    else modAdapt t (fun a => { a with hold := fall a.hold, holdDue := false }) s
  else s

/-- DIVERGENCE-HOLD-END (R112). -/
def execDivergenceHoldEnd (t : Target) (s : State) : Host.Outcome State Fault Refusal :=
  afterEvents (divergenceHoldEnd t) s

/-! ### TARGET-READ (R114) -/

/-- The snapshot of a target's adaptation record (R114). -/
def targetReadResponse (b : Byte) (s : State) : Response :=
  match targetOf b with
  | none => bare .badArgument
  | some t =>
    let a := getAdapt t s
    okWith (.target s.now a.settle a.postscaler a.divergence a.hold a.frozen a.lastResidual)

/-- TARGET-READ (R114). -/
def execTargetRead (p : Payload Byte) (s : State) : Host.Outcome State Fault Refusal :=
  manage p (fun b s => respond (targetReadResponse b s) s) s

end Sys2Proof.Machine
end

