-- ==== Sys2Proof/Machine/Stations.lean ====
section
/-! DEFINITION. Sensing stations (spec/06): pairing, station values, shock, residuals and the
filter, lock, the close of a frame, the end of a shock hold, FORCE-LOCK and STATION-READ. -/

namespace Sys2Proof.Machine

/-! ### Pairing (R118 to R120) -/

/-- A channel A word: pending A becomes its value (R119). -/
def StationState.wordA (v : Int) (st : StationState) : StationState :=
  { st with pendingA := some v }

/-- A channel B word: it completes the pair with a pending A, and is discarded without one
(R119). -/
def StationState.wordB (v : Int) (st : StationState) : StationState :=
  match st.pendingA with
  | none => st
  | some a => { st with pendingA := none, pair := some (a, v) }

/-- A channel word acts on the pairing state of the station its tag names; tags 32 to 63 are ignored
(R118, R119). -/
def channelWord (tag : BitVec 6) (value : Half) (s : State) : State :=
  match below 16 (tag.toNat / 2) with
  | none => s
  | some k =>
    if tag.toNat % 2 = 0 then modStation k (StationState.wordA value.toInt) s
    else modStation k (StationState.wordB value.toInt) s

/-- CHANNEL-WORD (R119). -/
def execChannelWord (tag : BitVec 6) (value : Half) (s : State) :
    Host.Outcome State Fault Refusal :=
  afterEvents (channelWord tag value) s

/-- A raw value of magnitude 32000 or more is a status code (R120). -/
def isCode (v : Int) : Bool := decide (32000 ≤ v.natAbs)

/-- The two overrange codes: +32767 and −32768 (R120). -/
def isOverrange (v : Int) : Bool := decide (v = 32767) || decide (v = -32768)

/-- A status code is taken as 0 (R120, R124). -/
def measured (v : Int) : Int := if isCode v then 0 else v

/-- A completed pair that holds no status code (R123). -/
def pairValid (p : Int × Int) : Bool := !isCode p.1 && !isCode p.2

/-- A completed pair that holds an overrange code (R120, R125). -/
def pairOverrange (p : Int × Int) : Bool := isOverrange p.1 || isOverrange p.2

/-! ### Station values and shock (R124, R125, R132) -/

/-- A station's settings (R135). -/
def stationSettings (k : Station) (s : State) : StationSettings := tget s.settings.stations k

/-- The clip of station values: ± 32767. -/
def valueClip : Int := 32767

/-- The rotational value R (R124). -/
def rotational (sense : Sense) (p : Int × Int) : Int :=
  match sense with
  | .normal => clip valueClip (measured p.1 - measured p.2)
  | .reversed => clip valueClip (measured p.2 - measured p.1)

/-- The translational value T (R124). -/
def translational (p : Int × Int) : Int := clip valueClip (measured p.1 + measured p.2)

/-- The scaled value M (R124). -/
def scaledM (g : StationSettings) (p : Int × Int) : Int :=
  clip valueClip (divNearest (rotational g.sense p * g.scale) (2 ^ 14))

/-- A taken sample is a shock sample (R125). -/
def isShock (g : StationSettings) (p : Int × Int) : Bool :=
  (pairValid p && decide (g.threshold ≤ (translational p).natAbs)) || pairOverrange p

/-- The slots whose shock-station setting names a station (R142). -/
def watchers (k : Station) (s : State) : List Slot :=
  indicesWhere s.settings.slots fun g => decide (g.shockStation = some k)

/-- A shock sample: the station's hold is set to H, and every slot that names the station is
triggered (R132, R142). -/
def shockSample (k : Station) (s : State) : State :=
  (watchers k s).foldl (fun s slot => trigger slot s)
    (modStation k (fun st => { st with shockHold := s.settings.global.shockHold }) s)

/-! ### Residuals and the filter (R126, R127) -/

/-- The filter coefficient a16: 3, 4, 5 or 6 (R127). -/
def a16 (g : StationSettings) : Int := g.coefficient + 3

/-- A filter stage moves its output toward its input (R127). -/
def filterStage (a input output : Int) : Int := output + ((input - output) * a + 8) / 16

/-- A filter step on a residual (R127). -/
def StationState.filterStep (a r : Int) (st : StationState) : StationState :=
  { st with y1 := filterStage a r st.y1, y2 := filterStage a (filterStage a r st.y1) st.y2 }

/-- A residual added to an account (R126). -/
def Account.add (r : Int) (a : Account) : Account :=
  { a with sum := a.sum + r, count := a.count + 1 }

/-- The change of the account of a frame, of the two a station holds (R121). -/
def StationState.modAccount (f : Frame) (g : Account → Account) (st : StationState) :
    StationState :=
  if st.older.frame = f then { st with older := g st.older }
  else if st.newer.frame = f then { st with newer := g st.newer }
  else st

/-- A station's account of a frame (R121). -/
def StationState.account (f : Frame) (st : StationState) : Option Account :=
  if st.older.frame = f then some st.older
  else if st.newer.frame = f then some st.newer
  else none

/-- The residual r = M − P, clipped to ± 32767 (R126). -/
def residual (m p : Int) : Int := clip valueClip (m - p)

/-- A residual is accumulated, and steps the filter when the station is LOCKED and its shock hold is
not running (R126, R127). -/
def takeResidual (k : Station) (f : Frame) (r : Int) (s : State) : State :=
  let s := modStation k (StationState.modAccount f (Account.add r)) s
  if (getStation k s).effective = .locked ∧ (getStation k s).shockHold = 0 then
    modStation k (StationState.filterStep (a16 (stationSettings k s)) r) s
  else s

/-! ### Lock (R128) -/

/-- The detected lock state and its runs after a sample counted for lock (R128). -/
def StationState.countLock (g : GlobalSettings) (valid : Bool) (st : StationState) :
    StationState :=
  match st.detected, valid with
  | .unlocked, true =>
    if g.stationLock ≤ st.goodRun + 1 then
      { st with detected := .locked, goodRun := 0, badRun := 0 }
    else { st with goodRun := st.goodRun + 1 }
  | .unlocked, false => { st with goodRun := 0 }
  | .locked, true => { st with badRun := 0 }
  | .locked, false =>
    if g.stationUnlock ≤ st.badRun + 1 then
      { st with detected := .unlocked, goodRun := 0, badRun := 0 }
    else { st with badRun := st.badRun + 1 }

/-- A sample is counted for lock, with the entry actions of a change (R128, R130). -/
def lockSample (k : Station) (valid : Bool) (s : State) : State :=
  changeLock k (StationState.countLock s.settings.global valid) s

/-! ### Taking a sweep (R122, R123) -/

/-- Stages 1 and 2 of a sample with a completed pair: the last M, and the shock test (R123 to
R125). -/
def takeValues (k : Station) (p : Int × Int) (s : State) : State :=
  let s := modStation k (fun st => { st with lastM := scaledM (stationSettings k s) p }) s
  if isShock (stationSettings k s) p then shockSample k s else s

/-- Stages 3 and 4 of a valid sample: a residual is formed when the ring holds the record of the
sample's frame (R123, R126). -/
def takeMeasured (k : Station) (t : Time) (p : Int × Int) (s : State) : State :=
  match matchFrame (frameOf t) (getRing (stationTarget k) s) with
  | some r =>
    takeResidual k (frameOf t)
      (residual (scaledM (stationSettings k s) p) (tget r.sums (periodOf t))) s
  | none => s

/-- A sample taken for a station goes through its five stages (R123). -/
def takeSample (k : Station) (t : Time) (s : State) : State :=
  match (getStation k s).pair with
  | none => lockSample k false s
  | some p =>
    if pairValid p then lockSample k true (takeMeasured k t p (takeValues k p s))
    else lockSample k false (takeValues k p s)

/-- A period joins an account's taken set (R121). -/
def Account.take (i : Fin 8) (a : Account) : Account := { a with taken := tset a.taken i true }

/-- A sweep offered to a station is ignored when the account of its frame already holds its period,
and is taken otherwise (R122). -/
def offerSweep (t : Time) (s : State) (k : Station) : State :=
  match (getStation k s).account (frameOf t) with
  | none => s
  | some a =>
    if tget a.taken (periodOf t) then s
    else takeSample k t (modStation k
      (StationState.modAccount (frameOf t) (Account.take (periodOf t))) s)

/-- Every station's pending A value and completed pair become absent (R119). -/
def StationState.clearPairing (st : StationState) : StationState :=
  { st with pendingA := none, pair := none }

/-- The sweep is over. -/
def clearPairing (s : State) : State :=
  { s with stations := s.stations.map StationState.clearPairing }

/-- A sweep whose stamp names T is judged as a whole (R122). -/
def sweep (t : Time) (s : State) : State :=
  if After t s.now then s
  else if Before t (firstSample (frameOf s.now - 1)) then latch .sensorLate s
  else (List.finRange 16).foldl (offerSweep t) s

/-- A SWEEP-END closes its sweep (R118, R122). -/
def closeSweep (stamp : Half) (s : State) : State :=
  clearPairing (sweep (readStamp s.now stamp) s)

/-- A word with a bad stop bit or type bits 00 or 11 has no effect on pairing, on any sweep, on any
count or on any flag (R175). -/
def discardedWord (s : State) : State := s

/-- DISCARDED-WORD (R175). -/
def execDiscardedWord (s : State) : Host.Outcome State Fault Refusal := afterEvents discardedWord s

/-! ### Frame close (R131) -/

/-- How many periods of an account's frame were not taken. -/
def Account.missing (a : Account) : Nat := (a.taken.toList.filter fun b => !b).length

/-- m samples in a row counted for lock as invalid (R131). -/
def lockMisses (k : Station) : Nat → State → State
  | 0, s => s
  | m + 1, s => lockMisses k m (lockSample k false s)

/-- The frame-mean residual (R97, R131). -/
def Account.mean (a : Account) : Int := divTowardZero a.sum a.count

/-- Stage 1 of the close: a count of 4 or more hands the mean over (R97, R131). -/
def closeMean (k : Station) (s : State) : State :=
  let a := (getStation k s).older
  if 4 ≤ a.count then stationMean k a.frame a.mean s else s

/-- Stage 2 of the close: the missing periods are counted for lock, if the account is so marked
(R131). -/
def closeMissing (k : Station) (a : Account) (s : State) : State :=
  if a.missingCounted then lockMisses k a.missing s else s

/-- Stage 3 of the close: the account is discarded and the account of frame g opened (R121,
R131). -/
def StationState.shiftAccounts (g : Frame) (st : StationState) : StationState :=
  { st with older := st.newer, newer := freshAccount g true }

/-- A station's close at the boundary that begins frame g (R131). -/
def closeFrame (k : Station) (g : Frame) (s : State) : State :=
  modStation k (StationState.shiftAccounts g)
    (closeMissing k (getStation k s).older (closeMean k s))

/-! ### The end of a shock hold (R133) -/

/-- The fall of a shock hold that was still due at this boundary: where it reaches 0 the hold ends
and the filter is zeroed (R133). DESIGN CHOICE (assumption 24): with H = 1 the hold of a shock
sample taken before the boundary reaches 0 by this fall, so it ends and the filter is zeroed, where
R133 also says that after such a sample the hold does not end and the filter keeps its values. -/
def shockHoldEnd (k : Station) (s : State) : State :=
  if s.boundary ≠ .quiet ∧ (getStation k s).shockDue then
    if (getStation k s).shockHold = 1 then
      modStation k
        (fun st => { st with shockHold := 0, shockDue := false, y1 := 0, y2 := 0 }) s
    else modStation k (fun st => { st with shockHold := fall st.shockHold, shockDue := false }) s
  else s

/-- SHOCK-HOLD-END (R133). -/
def execShockHoldEnd (k : Station) (s : State) : Host.Outcome State Fault Refusal :=
  afterEvents (shockHoldEnd k) s

/-! ### FORCE-LOCK and STATION-READ (R129, R136) -/

/-- FORCE-LOCK (R129). -/
def forceLock (a : ForceArgs) (s : State) : State :=
  match stationOf a.index, lockModeOf a.mode with
  | some k, some force => respond okResponse (changeLock k (fun st => { st with force := force }) s)
  | _, _ => respond (bare .badArgument) s

/-- FORCE-LOCK (R129). -/
def execForceLock (p : Payload ForceArgs) (s : State) : Host.Outcome State Fault Refusal :=
  manage p forceLock s

/-- The snapshot of a station (R136). -/
def stationReadResponse (b : Byte) (s : State) : Response :=
  match stationOf b with
  | none => bare .badArgument
  | some k =>
    let st := getStation k s
    okWith (.station s.now st.effective st.detected st.force st.lastM st.y2 st.shockHold
      (getAdapt (stationTarget k) s).lastResidual)

/-- STATION-READ (R136). -/
def execStationRead (p : Payload Byte) (s : State) : Host.Outcome State Fault Refusal :=
  manage p (fun b s => respond (stationReadResponse b s) s) s

end Sys2Proof.Machine
end

