-- ==== Sys2Proof/Machine/Suppression.lean ====
section
/-! DEFINITION. Shock suppression (spec/07): the expiry of a hold, SUPPRESS-CLEAR and HOLD-SHORTEN.
The trigger itself (R143) stands in Sys2Proof/Machine/Ops.lean. -/

namespace Sys2Proof.Machine

/-- A slot's suppression mode (R140). -/
def modeOf (slot : Slot) (s : State) : SuppressionMode := (tget s.settings.slots slot).mode

/-- A hold expires: the slot moves by its mode and its clear request, which returns to 0 (R144). -/
def SuppressionRecord.expire (mode : SuppressionMode) (r : SuppressionRecord) :
    SuppressionRecord where
  state := match mode with
    | .frame => .clear
    | .latched => if r.clearRequested then .clear else .awaitingClear
  hold := 0
  clearRequested := false
  fallDue := false

/-- The fall of a hold that was still due at this boundary: where it reaches 0 the hold expires
(R144). DESIGN CHOICE (assumption 24): with H = 1 the hold of a trigger taken before the boundary
reaches 0 by this fall and expires, where R144 also says that after such a trigger no expiry takes
place. -/
def holdExpiry (slot : Slot) (s : State) : State :=
  if s.boundary ≠ .quiet ∧ (getSuppression slot s).fallDue then
    if (getSuppression slot s).hold = 1 then
      modSuppression slot (SuppressionRecord.expire (modeOf slot s)) s
    else modSuppression slot (fun r => { r with hold := r.hold - 1, fallDue := false }) s
  else s

/-- HOLD-EXPIRY (R144). -/
def execHoldExpiry (slot : Slot) (s : State) : Host.Outcome State Fault Refusal :=
  afterEvents (holdExpiry slot) s

/-- A suppression record after SUPPRESS-CLEAR (R145). -/
def SuppressionRecord.requestClear (r : SuppressionRecord) : SuppressionRecord :=
  match r.state with
  | .awaitingClear => { r with state := .clear }
  | .held => { r with clearRequested := true }
  | .clear => r

/-- A slot's suppression state as the responses carry it (R145, R146). -/
def suppressionResponse (slot : Slot) (s : State) : Response :=
  let r := getSuppression slot s
  okWith (.suppression r.state r.hold r.clearRequested (modeOf slot s))

/-- SUPPRESS-CLEAR of a slot (R145). -/
def suppressClear (b : Byte) (s : State) : State :=
  match slotOf b with
  | none => respond (bare .badArgument) s
  | some slot =>
    let s := modSuppression slot SuppressionRecord.requestClear s
    respond (suppressionResponse slot s) s

/-- SUPPRESS-CLEAR (R145). -/
def execSuppressClear (p : Payload Byte) (s : State) : Host.Outcome State Fault Refusal :=
  manage p suppressClear s

/-- The length to which HOLD-SHORTEN brings a hold (R140, R146). -/
def shortHold : Nat := 10

/-- A suppression record after HOLD-SHORTEN (R146). -/
def SuppressionRecord.shorten (r : SuppressionRecord) : SuppressionRecord :=
  match r.state with
  | .held => { r with hold := min r.hold shortHold }
  | _ => r

/-- HOLD-SHORTEN lowers this slot's hold (R146). -/
def SuppressionRecord.lowered (r : SuppressionRecord) : Bool :=
  decide (r.state = .held) && decide (shortHold < r.hold)

/-- HOLD-SHORTEN of all slots (R146). -/
def shortenAll (s : State) : State :=
  respond (okWith (.shortened (indicesWhere s.suppression SuppressionRecord.lowered).length
      (indicesWhere s.suppression fun r => decide (r.state = .awaitingClear)).length))
    { s with suppression := s.suppression.map SuppressionRecord.shorten }

/-- HOLD-SHORTEN of one slot or, with FFh, of all slots (R146, R176). -/
def holdShorten (b : Byte) (s : State) : State :=
  if b = 0xFF then shortenAll s
  else match slotOf b with
    | none => respond (bare .badArgument) s
    | some slot =>
      let s := modSuppression slot SuppressionRecord.shorten s
      respond (suppressionResponse slot s) s

/-- HOLD-SHORTEN (R146). -/
def execHoldShorten (p : Payload Byte) (s : State) : Host.Outcome State Fault Refusal :=
  manage p holdShorten s

end Sys2Proof.Machine
end

