-- ==== Sys2Proof/Machine/Timebase.lean ====
section
/-! DEFINITION. The frame boundary (R151, R152, and the boundary actions of every chapter): the
falls of the counts, the swap, the stations' cycles, the BEACON; the taking of what is still due
before chassis time or a row link moves on; and the advance of chassis time itself. The end of a
sample period, which also ends windows, stands in Sys2Proof/Machine/RowLinks.lean. -/

namespace Sys2Proof.Machine

/-! ### The falls of the counts (R102, R112, R133, R144) -/

/-- A count after the boundary's own part of its fall: a count of 2 or more falls by one; the fall
from 1, which ends the count, is the step of its own (SETTLE-END and its like). -/
def boundaryFall (due : Bool) (n : Nat) : Nat := if due && decide (1 < n) then n - 1 else n

/-- Whether a fall is still due after that part: it is where the count stood at 1. -/
def stillDue (due : Bool) (n : Nat) : Bool := due && decide (n = 1)

/-- An adaptation record at a boundary (R102, R112). -/
def AdaptRecord.lower (a : AdaptRecord) : AdaptRecord :=
  { a with
    settle := boundaryFall a.settleDue a.settle
    settleDue := stillDue a.settleDue a.settle
    hold := boundaryFall a.holdDue a.hold
    holdDue := stillDue a.holdDue a.hold }

/-- A station's shock hold at a boundary (R133). -/
def StationState.lower (st : StationState) : StationState :=
  { st with
    shockHold := boundaryFall st.shockDue st.shockHold
    shockDue := stillDue st.shockDue st.shockHold }

/-- A slot's suppression hold at a boundary (R144). -/
def SuppressionRecord.lower (r : SuppressionRecord) : SuppressionRecord :=
  { r with hold := boundaryFall r.fallDue r.hold, fallDue := stillDue r.fallDue r.hold }

/-- Every count above 1 falls by one. -/
def lowerCounts (s : State) : State :=
  { s with
    adaptation := { s.adaptation with records := s.adaptation.records.map AdaptRecord.lower }
    stations := s.stations.map StationState.lower
    suppression := s.suppression.map SuppressionRecord.lower }

/-- Every count's fall is due as a boundary is reached. -/
def markDue (s : State) : State :=
  { s with
    adaptation := { s.adaptation with
      records := s.adaptation.records.map
        fun a => { a with settleDue := true, holdDue := true } }
    stations := s.stations.map fun st => { st with shockDue := true }
    suppression := s.suppression.map fun r => { r with fallDue := true } }

/-! ### The swap (R61) -/

/-- An adaptation record at a swap: settle count S, which this boundary does not lower, and
postscaler 0 (R101 to R103). -/
def AdaptRecord.swapped (settle : Nat) (a : AdaptRecord) : AdaptRecord :=
  { a with settle := settle, settleDue := false, postscaler := 0 }

/-- If a swap is pending it is taken: the marker changes, the flag clears, SWAP-DONE is latched, and
every target settles anew (R61, R101). -/
def takeSwap (s : State) : State :=
  if s.store.swapPending then
    latch .swapDone { s with
      store := { s.store with active := s.store.active.other, swapPending := false }
      adaptation := { s.adaptation with
        records := s.adaptation.records.map (AdaptRecord.swapped s.settings.global.settle) } }
  else s

/-! ### The boundary (R72, R131, R151, R152) -/

/-- A station's cycle at the boundary that begins frame g: the close of frame g − 2, then the
beginning of the evaluation for frame g + 1 (R72, R131). -/
def stationCycle (g : Frame) (s : State) (k : Station) : State :=
  beginEvaluation (stationTarget k) (g + 1) (closeFrame k g s)

/-- The first update of the queue is of a step taken at this boundary, while the cycle of a station
with a lower target, which may still take a step that is queued before it (R94), is to come. -/
def lowerStepMayCome (g : Frame) (s : State) : Bool :=
  match s.adaptation.steps with
  | [] => false
  | st :: _ => decide (st.moment = ⟨s.now, 0⟩) &&
      (List.finRange 16).any fun k =>
        decide (stationTarget k < st.target) && decide ((getStation k s).newer.frame ≠ g)

/-- A grant to the Adaptation Engine inside the boundary: the steps of the stations' arrivals are
queued in ascending order of target (R94), so an update of one of them is granted only when no lower
one can come. -/
def boundaryUpdate (g : Frame) (s : State) : State :=
  if lowerStepMayCome g s then s else gainUpdate s

/-- One step of the boundary that its schedule places before the swap. -/
def boundaryAct (g : Frame) (s : State) : BoundaryAct → State
  | .cycle k => stationCycle g s k
  | .predictionRead => predictionRead s
  | .gainUpdate => boundaryUpdate g s

/-- The schedule of a boundary. One that names a station's cycle twice is that of no boundary, and
the swap comes first. -/
def scheduleOf (acts : List BoundaryAct) : List BoundaryAct :=
  if (cyclesOf acts).Nodup then acts else []

/-- The stations whose cycle comes after the swap, ascending. -/
def cyclesAfter (acts : List BoundaryAct) : List Station :=
  (List.finRange 16).filter fun k => decide (k ∉ cyclesOf acts)

/-- The BEACON that opens the frame, with the bank active once the boundary has been taken (R61,
R152). -/
def beaconNow (s : State) : Beacon := ⟨wireFrame (frameOf s.now), s.store.active⟩

/-- The row links open the frame: the BEACON is sent and the windows begin anew (R152). The windows
of the frame before are over by then: `chassisTimeAdvance` has run them. -/
def openFrame (s : State) : State :=
  { s with links := ⟨s.links.slots.map openWindow, some (beaconNow s)⟩ }

/-- The boundary's actions with a schedule (R61, R72, R131, R152). DESIGN CHOICE (assumption 7): no
access of the Management Port is granted among them; one is granted before the boundary's actions or
after them. -/
def takeFrameBoundary (acts : List BoundaryAct) (s : State) : State :=
  let g := frameOf s.now
  openFrame ((cyclesAfter acts).foldl (stationCycle g)
    (takeSwap (acts.foldl (boundaryAct g) (lowerCounts { s with boundary := .taken }))))

/-- The frame boundary, where chassis time has become a multiple of 8 and it has not been taken yet;
at any other moment there is no boundary (R151). -/
def frameBoundary (acts : List BoundaryAct) (s : State) : State :=
  match s.boundary with
  | .reached => takeFrameBoundary (scheduleOf acts) s
  | _ => s

/-- FRAME-BOUNDARY (R151). -/
def execFrameBoundary (acts : List BoundaryAct) (s : State) : Host.Outcome State Fault Refusal :=
  afterEvents (frameBoundary acts) s

/-! ### What is still due -/

/-- Every fall still due at this boundary is taken (R102, R112, R133, R144). -/
def takeFalls (s : State) : State :=
  let s := (List.finRange 112).foldl (fun s t => divergenceHoldEnd t (settleEnd t s)) s
  let s := (List.finRange 16).foldl (fun s k => shockHoldEnd k s) s
  let s := (List.finRange 96).foldl (fun s slot => holdExpiry slot s) s
  { s with boundary := .quiet }

/-- The boundary of the present chassis time, and the falls it leaves, are taken if they have not
been: a boundary comes before everything that happens in the sample period it begins (R151). -/
def takeBoundary (s : State) : State :=
  match s.boundary with
  | .quiet => s
  | .reached => takeFalls (frameBoundary [] s)
  | .taken => takeFalls s

/-- All that falls at the present chassis time and has not been taken yet: the records' time events
(R3), a fetch start whose conditions hold (R38), then the boundary. -/
def takeDue (s : State) : State := takeBoundary (takeMoment s)

/-- The same before a NOTICE of a profile, to which the fetch start may yield (R39). -/
def takeDueFor (id : ProfileId) (s : State) : State := takeBoundary (takeMomentFor id s)

/-! ### The advance of chassis time (R151) -/

/-- Chassis time advances by one, modulo 2^32; a multiple of 8 reaches a frame boundary (R151). -/
def advance (s : State) : State :=
  if (s.now + 1).toNat % 8 = 0 then markDue { s with now := s.now + 1, boundary := .reached }
  else { s with now := s.now + 1 }

/-- SWEEP-END (R122): a sweep taken in the same instant as a boundary comes before the advance that
reaches it, or after the boundary. -/
def execSweepEnd (stamp : Half) (s : State) : Host.Outcome State Fault Refusal :=
  afterEvents (fun s => closeSweep stamp (takeBoundary s)) s

end Sys2Proof.Machine
end

