-- ==== Sys2Proof/Machine/RowLinks.lean ====
section
/-! DEFINITION. The row links (spec/08): the end of an upstream phase with its presence count, the
FEED, the windows of a frame in their order, the taking of a drive's message in its window, STATUS,
and FORCE-PRESENCE; and the end of a sample period, by which the windows within it are over. -/

namespace Sys2Proof.Machine

/-! ### The end of an upstream phase (R157, R71) -/

/-- The window counts as good if a well-formed message was taken in it (R154, R157). -/
def windowGood : Option Answer → Bool
  | some a => a.good
  | none => false

/-- The detected presence state and its runs after a window (R157). -/
def LinkSlot.countWindow (g : GlobalSettings) (good : Bool) (l : LinkSlot) : LinkSlot :=
  match l.detected, good with
  | .absent, true =>
    if g.presenceLock ≤ l.goodRun + 1 then
      { l with detected := .present, goodRun := 0, missRun := 0 }
    else { l with goodRun := l.goodRun + 1 }
  | .absent, false => { l with goodRun := 0 }
  | .present, true => { l with missRun := 0 }
  | .present, false =>
    if g.presenceUnlock ≤ l.missRun + 1 then
      { l with detected := .absent, goodRun := 0, missRun := 0 }
    else { l with missRun := l.missRun + 1 }

/-- The window goes to its FEED phase with this block. -/
def setFeedPhase (slot : Slot) (m : Option Answer) (b : PendingBlock) (s : State) : State :=
  modLink slot (fun l => { l with window := .feedPhase m b }) s

/-- After the count: a PRESENT slot's evaluation for the next frame begins; an ABSENT slot's FEED
carries the ABSENT block (R71). -/
def beginSlotEvaluation (slot : Slot) (m : Option Answer) (s : State) : State :=
  match (getLink slot s).effective with
  | .present =>
    setFeedPhase slot m .evaluating (beginEvaluation (slotTarget slot) (frameOf s.now + 1) s)
  | .absent => setFeedPhase slot m (.ready absentBlock) s

/-- The upstream phase of the slot's window ends: the window is counted toward presence, then the
slot's evaluation begins if the slot is PRESENT (R153, R157, R71). What was received of an
incomplete message is discarded, and the window counts as missed. -/
def upstreamPhaseEnd (slot : Slot) (s : State) : State :=
  match (getLink slot s).window with
  | .upstream m =>
    beginSlotEvaluation slot m
      (changePresence slot (LinkSlot.countWindow s.settings.global (windowGood m)) s)
  | _ => s

/-! ### The FEED (R161) -/

/-- The reply code of a FEED: the answer to the window's message, NONE without one (R161). -/
def replyOf : Option Answer → Reply
  | some a => a.reply
  | none => .none

/-- The reply tag of a FEED (R161). -/
def replyTagOf : Option Answer → Nat
  | some a => a.tag
  | none => 0

/-- The FEED of a window (R161). -/
def feedOf (m : Option Answer) (b : Block) (s : State) : Feed :=
  ⟨replyOf m, replyTagOf m, b, frameTag (frameOf s.now + 1)⟩

/-- A FEED sent with the block flag CLIPPED latches CLIPPED (R85). -/
def latchClipped (b : Block) (s : State) : State := if b.clipped then latch .clipped s else s

/-- The FEED is sent, once, and the window is over (R161). -/
def sendFeed (slot : Slot) (m : Option Answer) (b : Block) (s : State) : State :=
  latchClipped b (modLink slot (fun l => { l with window := .over, sent := some (feedOf m b s) }) s)

/-- The FEED of the slot's window, once its block is ready (R161). Once the FEED is sent, there is
none. -/
def sendReady (slot : Slot) (s : State) : State :=
  match (getLink slot s).window with
  | .feedPhase m (.ready b) => sendFeed slot m b s
  | _ => s

/-! ### The windows of a frame, in order (R152, R153) -/

/-- A window whose slot's evaluation is in flight. -/
def Window.isEvaluating : Window → Bool
  | .feedPhase _ .evaluating => true
  | _ => false

/-- A window in its upstream phase, or before it. -/
def Window.isUpstream : Window → Bool
  | .upstream _ => true
  | _ => false

/-- The slots of a window: the one at its position in each of the eight rows (R153). -/
def slotsAt (w : Nat) : List Slot :=
  (List.finRange 96).filter fun slot => decide (position slot = w)

/-- The upstream phase of a slot's window ends where the queue of commands has left its end out: a
fetch start whose conditions hold comes before it, and one whose conditions it brings about comes at
it (R38). -/
def endPhase (slot : Slot) (s : State) : State :=
  if (getLink slot s).window.isUpstream then fetchStart (upstreamPhaseEnd slot (fetchStart s))
  else s

/-- The upstream phases of a window end, on every row at the same place of the frame (R152). -/
def endPhases (w : Nat) (s : State) : State := (slotsAt w).foldl (fun s slot => endPhase slot s) s

/-- A slot's evaluation runs in the turnaround of its window, so what comes of it finds the upstream
phases of the window ended on every row (R152). -/
def beginTurnaround (t : Target) (s : State) : State :=
  match slotOfTarget t with
  | some slot =>
    if (getLink slot s).window.isEvaluating then endPhases (position slot) s else s
  | none => s

/-- A grant to the Prediction Engine where a read waits, after what has to have come before it
(R65, R152). -/
def readInTurnaround (s : State) : State :=
  match nextReader s with
  | some t => predictionRead (beginTurnaround t s)
  | none => s

/-- PREDICTION-LIST-READ (R65). -/
def execPredictionListRead (s : State) : Host.Outcome State Fault Refusal :=
  afterEvents readInTurnaround s

/-- The end of a target's evaluation where it can end, after what has to have come before it
(R91, R152). -/
def endInTurnaround (t : Target) (s : State) : State :=
  if canEnd t s then evaluationEnd t (beginTurnaround t s) else s

/-- EVALUATION-END (R91). -/
def execEvaluationEnd (t : Target) (s : State) : Host.Outcome State Fault Refusal :=
  afterEvents (endInTurnaround t) s

/-- The evaluation that a slot's window waits for ends. -/
def endSlotEvaluation (slot : Slot) (s : State) : State :=
  if (getLink slot s).window.isEvaluating then finishEvaluation (slotTarget slot) s else s

/-- The slots' evaluations of a window end, by the end of its turnaround, in ascending order of
target (R73, R152). -/
def endEvaluations (w : Nat) (s : State) : State :=
  (slotsAt w).foldl (fun s slot => endSlotEvaluation slot s) s

/-- The FEED phase of a window begins, on every row at one place of the frame: the upstream phases
have ended, and so have the evaluations of the turnaround (R71, R152). -/
def openFeedPhases (w : Nat) (s : State) : State := endEvaluations w (endPhases w s)

/-- The FEEDs of a window go out. -/
def sendFeeds (w : Nat) (s : State) : State := (slotsAt w).foldl (fun s slot => sendReady slot s) s

/-- What is left of a window on the eight rows: its upstream phases and evaluations end, then its
FEEDs go out (R152). -/
def runWindow (w : Nat) (s : State) : State := sendFeeds w (openFeedPhases w s)

/-- Windows 0 to w − 1 run to their end, in order (R152). -/
def runWindows : Nat → State → State
  | 0, s => s
  | w + 1, s => runWindow w (runWindows w s)

/-- Where the events of window 0 have their places in the frame, in bit periods of the line; those
of window w lie 400w bit periods later (R152). -/
inductive Place where
  /-- the tenth byte of a message can have been received, 80 bit periods after the window and its
  upstream phase begin at bit period 200: no message is taken before (R153, R173) -/
  | message
  /-- the upstream phase has had its 160 bit periods -/
  | phaseEnd
  /-- after 80 more of turnaround the slot's evaluation has ended, and the FEED phase begins -/
  | feed
  /-- the FEED phase has had its 160 bit periods, and the window is over -/
  | windowEnd
  deriving DecidableEq, Repr

/-- The bit period of a place in window w (R152). -/
def Place.bit (w : Nat) : Place → Nat
  | .message => 280 + 400 * w
  | .phaseEnd => 360 + 400 * w
  | .feed => 440 + 400 * w
  | .windowEnd => 600 + 400 * w

/-- The bit period at which sample period i of a frame ends: a frame holds 5000 (R152). -/
def periodEnd (i : Nat) : Nat := 625 * (i + 1)

/-- The place of a slot's window comes before the present sample period ends. -/
def placeCome (p : Place) (slot : Slot) (s : State) : Bool :=
  decide (p.bit (position slot) < periodEnd (periodOf s.now).val)

/-- An event in the window of a slot, where its place in the frame has come. The windows before its
own, which a Row Link Controller runs in order, have come before it (R152). Before its place comes
there is no such event (assumptions 1 and 4). -/
def inPlace (p : Place) (slot : Slot) (f : State → State) (s : State) : State :=
  if placeCome p slot s then f (runWindows (position slot) s) else s

/-- An event in the window of a slot: what falls at the present chassis time has come before it. -/
def inTurn (p : Place) (slot : Slot) (f : State → State) (s : State) :
    Host.Outcome State Fault Refusal :=
  running (fun s => inPlace p slot f (takeDue s)) s

/-- UPSTREAM-PHASE-END (R157). -/
def execUpstreamPhaseEnd (slot : Slot) (s : State) : Host.Outcome State Fault Refusal :=
  inTurn .phaseEnd slot (upstreamPhaseEnd slot) s

/-- FEED (R161): the FEED phase of its window has begun on every row before it (R152). -/
def execFeed (slot : Slot) (s : State) : Host.Outcome State Fault Refusal :=
  inTurn .feed slot (fun s => sendReady slot (openFeedPhases (position slot) s)) s

/-! ### Taking a message (R153 to R156) -/

/-- The window's message has been taken with this answer. -/
def setAnswer (slot : Slot) (a : Answer) (s : State) : State :=
  modLink slot (fun l => { l with window := .upstream (some a) }) s

/-- The upstream phase at a slot's place in the frame has ended on no row: it ends at one place on
all of them (R152). -/
def phaseOpen (slot : Slot) (s : State) : Bool :=
  (slotsAt (position slot)).all fun x => (getLink x s).window.isUpstream

/-- A message is received in the upstream phase of the slot's window, and only the first of the
window is taken; what the line carries at other times is not received (R153). -/
def inWindow (slot : Slot) (f : State → State) (s : State) : State :=
  if phaseOpen slot s ∧ (getLink slot s).window = .upstream none then f s else s

/-- A well-formed NOTICE, AMEND, WITHDRAW or CLOSE is handed to the Source Table, and its answer is
held for the FEED of the window (R8, R155). -/
def handToTable (slot : Slot) (tag : Tag) (f : State → Reply × State) (s : State) : State :=
  setAnswer slot ⟨true, (answerIfPresent slot f s).1, tag.val⟩ (answerIfPresent slot f s).2

/-- A malformed message is discarded; the FEED carries NONE with tag 0 (R154). -/
def discardMessage (slot : Slot) (s : State) : State := setAnswer slot ⟨false, .none, 0⟩ s

/-- A message in its window. -/
def message (slot : Slot) (f : State → State) (s : State) : Host.Outcome State Fault Refusal :=
  inTurn .message slot (inWindow slot f) s

/-- A NOTICE as it is taken (R9); with a length limit outside its encoding it is malformed (R154).
-/
def takeNotice (slot : Slot) (m : NoticeFields) (s : State) : State :=
  if m.wellFormed then handToTable slot m.tag (noticePresent slot m) s else discardMessage slot s

/-- NOTICE (R9): a fetch start that would choose the count-zero slot of its profile yields to it
(R39). -/
def execNotice (slot : Slot) (m : NoticeFields) (s : State) : Host.Outcome State Fault Refusal :=
  running (fun s => inPlace .message slot (inWindow slot (takeNotice slot m))
    (takeDueFor m.profile s)) s

/-- AMEND (R14, R15); with neither a new start nor a new scale it is malformed (R154). -/
def execAmend (slot : Slot) (m : AmendFields) (s : State) : Host.Outcome State Fault Refusal :=
  message slot (fun s =>
    if m.wellFormed then handToTable slot m.tag (amendPresent slot m) s
    else discardMessage slot s) s

/-- WITHDRAW (R16). -/
def execWithdraw (slot : Slot) (tag : Tag) (s : State) : Host.Outcome State Fault Refusal :=
  message slot (handToTable slot tag (withdrawPresent slot tag)) s

/-- CLOSE (R17). -/
def execClose (slot : Slot) (tag : Tag) (stamp : Half) (s : State) :
    Host.Outcome State Fault Refusal :=
  message slot (handToTable slot tag (closePresent slot tag stamp)) s

/-- The last drive state replaced (R156, first step). -/
def setDrive (slot : Slot) (d : DriveState) (s : State) : State :=
  modLink slot (fun l => { l with drive := d }) s

/-- The shock flag of a STATUS triggers its slot (R141; R156, second step). -/
def statusShock (slot : Slot) (shock : Bool) (s : State) : State :=
  if shock then trigger slot s else s

/-- The residual of a STATUS is handed on if the slot is PRESENT (R156, third step). -/
def statusHandResidual (slot : Slot) (m : StatusFields) (s : State) : State :=
  match (getLink slot s).effective with
  | .present =>
    statusResidual slot m.residual.toInt m.frameTag.val (decide (m.drive = .parked)) s
  | .absent => s

/-- The three steps of a STATUS, in their order; its window is good and its reply NONE (R156). -/
def takeStatus (slot : Slot) (m : StatusFields) (s : State) : State :=
  setAnswer slot ⟨true, .none, 0⟩
    (statusHandResidual slot m (statusShock slot m.shock (setDrive slot m.drive s)))

/-- STATUS (R156). -/
def execStatus (slot : Slot) (m : StatusFields) (s : State) : Host.Outcome State Fault Refusal :=
  message slot (takeStatus slot m) s

/-- MALFORMED-MESSAGE (R154). -/
def execMalformedMessage (slot : Slot) (s : State) : Host.Outcome State Fault Refusal :=
  message slot (discardMessage slot) s

/-! ### FORCE-PRESENCE (R160) -/

/-- The force after a FORCE-PRESENCE with a mode (R160). -/
def LinkSlot.applyForce (mode : ForceMode) (l : LinkSlot) : LinkSlot :=
  match mode with
  | .present => { l with force := some .present }
  | .absent => { l with force := some .absent }
  | .release => { l with force := none }
  | .keep => l

/-- The response of FORCE-PRESENCE (R160). -/
def presenceResponse (slot : Slot) (s : State) : Response :=
  let l := getLink slot s
  okWith (.presence l.effective l.detected l.force l.goodRun l.missRun l.drive)

/-- FORCE-PRESENCE (R160). -/
def forcePresence (a : ForceArgs) (s : State) : State :=
  match slotOf a.index, presenceModeOf a.mode with
  | some slot, some mode =>
    let s := changePresence slot (LinkSlot.applyForce mode) s
    respond (presenceResponse slot s) s
  | _, _ => respond (bare .badArgument) s

/-- FORCE-PRESENCE (R160). -/
def execForcePresence (p : Payload ForceArgs) (s : State) : Host.Outcome State Fault Refusal :=
  manage p forcePresence s

/-! ### The end of a sample period (R151, R152) -/

/-- How many windows of a frame are over when its sample period i ends (R152). -/
def windowsEnded (i : Nat) : Nat := (periodEnd i - Place.windowEnd.bit 0) / 400 + 1

/-- The parts of window w whose place lies in sample period i of a frame: its upstream phases have
ended, and so have its slots' evaluations, which run in the turnaround before its FEED phase
(R152). -/
def periodPhases (i w : Nat) (s : State) : State :=
  if Place.feed.bit w < periodEnd i then openFeedPhases w s
  else if Place.phaseEnd.bit w < periodEnd i then endPhases w s
  else s

/-- The windows in sample period i of a frame: those that end within it are over when it ends, and
of the next one what has its place within it has come (R152). -/
def periodWindows (i : Nat) (s : State) : State :=
  periodPhases i (windowsEnded i) (runWindows (windowsEnded i) s)

/-- The end of a sample period: what falls at its chassis time and has not been taken is taken, the
phases, evaluations and windows that end within it have ended (R152), its stations' evaluations have
ended (R72), and chassis time advances (R151). -/
def chassisTimeAdvance (s : State) : State :=
  advance (finishStationEvaluations (periodWindows (periodOf s.now).val (takeDue s)))

/-- CHASSIS-TIME-ADVANCE (R151). -/
def execChassisTimeAdvance (s : State) : Host.Outcome State Fault Refusal :=
  running chassisTimeAdvance s

end Sys2Proof.Machine
end

