-- ==== Sys2Proof/Machine/Formats.lean ====
section
/-! DEFINITION. What the part sends, as bytes (spec/10): the BEACON and the FEED with their check
byte, and the management responses. -/

namespace Sys2Proof.Machine

/-! ### Bytes -/

/-- The two bytes of a 16-bit field, most significant first. -/
def halfBytes (h : Half) : List Byte := [h.extractLsb' 8 8, h.extractLsb' 0 8]

/-- A 16-bit field from two bytes, most significant first. -/
def halfOf (hi lo : Byte) : Half := hi ++ lo

/-- The four bytes of a chassis time. -/
def timeBytes (t : Time) : List Byte :=
  [t.extractLsb' 24 8, t.extractLsb' 16 8, t.extractLsb' 8 8, t.extractLsb' 0 8]

/-- A signed value in two bytes. -/
def intBytes (x : Int) : List Byte := halfBytes (BitVec.ofInt 16 x)

/-- A count, length or setting value in two bytes. -/
def countBytes (n : Nat) : List Byte := halfBytes (BitVec.ofNat 16 n)

/-- A number or a choice in one byte. -/
def byteOf (n : Nat) : Byte := BitVec.ofNat 8 n

/-- The bit of a truth value. -/
def bitOf (b : Bool) (place : Nat) : Byte := if b then 1#8 <<< place else 0

/-! ### Bits on a line (R164, 10.1)

The management port and the row links carry each byte most significant bit first. -/

/-- The bits of a byte in the order in which a line carries them. -/
def byteBits (b : Byte) : List Bool :=
  [b.getLsbD 7, b.getLsbD 6, b.getLsbD 5, b.getLsbD 4, b.getLsbD 3, b.getLsbD 2, b.getLsbD 1,
    b.getLsbD 0]

/-- The bits of bytes in the order in which a line carries them. -/
def lineBits (l : List Byte) : List Bool := l.flatMap byteBits

/-- A byte from the eight bits that a line carried, the first the most significant. -/
def byteOfBits (b7 b6 b5 b4 b3 b2 b1 b0 : Bool) : Byte :=
  BitVec.ofBool b7 ++ BitVec.ofBool b6 ++ BitVec.ofBool b5 ++ BitVec.ofBool b4 ++
    BitVec.ofBool b3 ++ BitVec.ofBool b2 ++ BitVec.ofBool b1 ++ BitVec.ofBool b0

/-- The bytes that a line has carried whole. -/
def bytesOfBits : List Bool → List Byte
  | b7 :: b6 :: b5 :: b4 :: b3 :: b2 :: b1 :: b0 :: rest =>
    byteOfBits b7 b6 b5 b4 b3 b2 b1 b0 :: bytesOfBits rest
  | _ => []

/-! ### Row link messages (R173, R174) -/

/-- What the bytes of a row link message sum to, modulo 256 (R173). -/
def checkSum : Byte := 0xA5

/-- The sum of bytes modulo 256. -/
def byteSum (l : List Byte) : Byte := l.foldr (· + ·) 0

/-- The check byte of a message (R173). -/
def checkByte (l : List Byte) : Byte := checkSum - byteSum l

/-- A message with its check byte. -/
def withCheck (l : List Byte) : List Byte := l ++ [checkByte l]

/-- The value of a reply code (R174). -/
def Reply.code : Reply → Nat
  | .none => 0x00
  | .taken => 0x01
  | .takenLate => 0x02
  | .notPresent => 0x03
  | .tagInUse => 0x04
  | .slotLimit => 0x05
  | .profileBad => 0x06
  | .tooFar => 0x07
  | .stale => 0x08
  | .full => 0x09
  | .busy => 0x0A
  | .tooLate => 0x0B
  | .unknownTag => 0x0C
  | .alreadyEnded => 0x0D
  | .notRunning => 0x0E

/-- A bank's number: A is 0 and B is 1 (R174, R176). -/
def BankName.code : BankName → Nat
  | .a => 0
  | .b => 1

/-- The five bytes of a BEACON (R174). -/
def Beacon.bytes (b : Beacon) : List Byte :=
  withCheck ([0x3C] ++ halfBytes b.frameNumber ++ [byteOf b.bank.code])

/-- The second byte of a FEED: reply tag and block flags (R174). -/
def Feed.flagByte (f : Feed) : Byte :=
  byteOf f.tag <<< 5 ||| bitOf f.block.absent 4 ||| bitOf f.block.parked 3
    ||| bitOf f.block.suppressed 2 ||| bitOf f.block.clipped 1 ||| bitOf f.block.partialFlag 0

/-- The twenty bytes of a FEED (R174). -/
def Feed.bytes (f : Feed) : List Byte :=
  withCheck ([byteOf f.reply.code, f.flagByte, byteOf f.frameTag]
    ++ f.block.values.toList.flatMap intBytes)

/-- The bits of a BEACON on a row link (10.1). -/
def Beacon.line (b : Beacon) : List Bool := lineBits b.bytes

/-- The bits of a FEED on a row link (10.1). -/
def Feed.line (f : Feed) : List Bool := lineBits f.bytes

/-! ### Management responses (R164, R176) -/

/-- The value of a status (R176). -/
def Status.code : Status → Nat
  | .ok => 0x00
  | .busy => 0x01
  | .badArgument => 0x02
  | .swapPending => 0x03
  | .notPending => 0x04
  | .poolFull => 0x05
  | .badList => 0x06
  | .notLent => 0x07
  | .alreadyLent => 0x08
  | .inUse => 0x09
  | .profileBad => 0x0A
  | .noSuchRecord => 0x0B
  | .unknownCommand => 0x0C

/-- Reset causes, numbered in the order R170 lists them. -/
def ResetCause.code : ResetCause → Nat
  | .powerUp => 0
  | .resetLine => 1
  | .restartCold => 2
  | .restartWarm => 3
  | .warmLine => 4

/-- The reasons of BAD-LIST, numbered in the order of R56. -/
def ListFault.code : ListFault → Nat
  | .length => 0
  | .range => 1
  | .self => 2
  | .duplicate => 3
  | .order => 4

/-- Record states, numbered in the order of R1. -/
def RecordState.code : RecordState → Nat
  | .free => 0
  | .pending => 1
  | .running => 2
  | .tail => 3

/-- Port states, numbered in the order of R46. -/
def PortState.code : PortState → Nat
  | .owned => 0
  | .lendPending => 1
  | .lent => 2

/-- Lock states, numbered in the order of R136. -/
def Lock.code : Lock → Nat
  | .locked => 0
  | .unlocked => 1

/-- Presence states, numbered in the order of R157. -/
def Presence.code : Presence → Nat
  | .present => 0
  | .absent => 1

/-- Drive states, numbered as R174 numbers them. -/
def driveCode : DriveState → Nat
  | .active => 0
  | .idle => 1
  | .parked => 2

/-- Suppression states, numbered in the order of R139. -/
def SuppressionState.code : SuppressionState → Nat
  | .clear => 0
  | .held => 1
  | .awaitingClear => 2

/-- Suppression modes, numbered in the order of R140. -/
def SuppressionMode.code : SuppressionMode → Nat
  | .frame => 0
  | .latched => 1

/-- A choice in one byte. -/
def choiceByte (n : Nat) : List Byte := [byteOf n]

/-- A lone yes or no, whose size and values R176 does not give (assumption 3). -/
def yesNo (b : Bool) : List Byte := Config.yesNoBytes b

/-- An optional field of n bytes: choice byte 0 and zeros, or choice byte 1 and the field (R176,
assumption 9). -/
def optionalBytes (n : Nat) : Option (List Byte) → List Byte
  | none => byteOf 0 :: List.replicate n 0
  | some l => byteOf 1 :: l

/-- A list preceded by the 1-byte count of its items (R176). -/
def listBytes {α : Type} (l : List α) (f : α → List Byte) : List Byte :=
  byteOf l.length :: l.flatMap f

/-- A force: a choice whose first value is its absence (R129, R160). -/
def forceByte : Option Nat → List Byte
  | none => choiceByte 0
  | some n => choiceByte (n + 1)

/-- A coupling entry in four bytes (R176). -/
def Entry.bytes (e : Entry) : List Byte :=
  [byteOf e.target.val] ++ intBytes e.gain ++ [byteOf e.delay.val]

/-- A setting value in four bytes (R176). -/
def settingValueBytes (v : SettingValue) : List Byte :=
  [v.choice, v.station] ++ halfBytes v.value

/-- The fields of a live record, in the order R27 names them. -/
def RecordReport.bytes (r : RecordReport) : List Byte :=
  [byteOf r.number.val] ++ choiceByte r.record.state.code
    ++ [byteOf r.record.slot.val, byteOf r.record.tag.val] ++ countBytes r.record.profile.val
    ++ intBytes r.record.scale ++ timeBytes r.record.start ++ countBytes r.record.length
    ++ optionalBytes 2 (r.record.limit.map countBytes)
    ++ optionalBytes 4 (r.record.cut.map timeBytes) ++ timeBytes r.endPoint
    ++ yesNo r.record.late ++ yesNo r.record.provisional

/-- An entry of SOURCE-LIST, in the order R28 names its fields. -/
def SourceEntry.bytes (e : SourceEntry) : List Byte :=
  [byteOf e.number.val] ++ choiceByte e.state.code ++ [byteOf e.slot.val, byteOf e.tag.val]
    ++ countBytes e.profile.val ++ yesNo e.provisional

/-- A cache slot of CACHE-READ: its state, and its id, length and count (R46). DESIGN CHOICE
(assumption 9): R46 and R176 do not say whether a field that the slot's state lacks is an optional
field or is left out; here each of the three is an optional field of its own, its choice byte sent
in every state. -/
def CacheSlotReport.bytes : CacheSlotReport → List Byte
  | .empty => choiceByte 0 ++ optionalBytes 2 none ++ optionalBytes 2 none ++ optionalBytes 2 none
  | .filling id =>
    choiceByte 1 ++ optionalBytes 2 (some (countBytes id.val)) ++ optionalBytes 2 none
      ++ optionalBytes 2 none
  | .filled id length count =>
    choiceByte 2 ++ optionalBytes 2 (some (countBytes id.val))
      ++ optionalBytes 2 (some (countBytes length)) ++ optionalBytes 2 (some (countBytes count))

/-- Byte j of the unusable set: bit b is the membership of id 8j + b (R176). -/
def membershipByte (u : Vector Bool 512) (j : Nat) : Byte :=
  (List.range 8).foldl (fun acc b => acc ||| bitOf (u[8 * j + b]?.getD false) b) 0

/-- The payload of CACHE-READ (R46, R176). DEDUCED (assumption 9): the queue's length, which R46
names with the queue, is the 1-byte count that R176 puts before every list, and no field besides. -/
def CacheReport.bytes (r : CacheReport) : List Byte :=
  timeBytes r.time ++ r.slots.toList.flatMap CacheSlotReport.bytes
    ++ listBytes r.lru (fun c => [byteOf c.val]) ++ listBytes r.queue (fun i => countBytes i.val)
    ++ choiceByte r.port.code ++ optionalBytes 2 (r.inFlight.map fun i => countBytes i.val)
    ++ (List.range 64).map (membershipByte r.unusable)

/-- The part code's bytes: the number in a field whose size R176 does not give, most significant
byte first; the bytes above its last are 0 (assumption 3). -/
def partCodeBytes (n : Nat) : List Byte :=
  List.replicate Config.partCodeBytesBeforeLast 0 ++ [byteOf n]

/-- The payload bytes of a response, in the order its command's rule names the fields (R176).
DEDUCED (assumption 9): R176 names no kind of field for the position of BAD-LIST (R56), which is
sent as an optional count of 2 bytes; and LIST-READ's list length (R58) is a field of 2 bytes of its
own, before the 1-byte count that R176 puts before every list. -/
def Body.bytes : Body → List Byte
  | .none => []
  | .identity partCode capacities time cause =>
    partCodeBytes partCode ++ capacities.flatMap countBytes ++ timeBytes time
      ++ choiceByte cause.code
  | .flags bits => halfBytes (bits.setWidth 16)
  | .setting v => settingValueBytes v
  | .listWritten bank length clipped pool =>
    choiceByte bank.code ++ countBytes length ++ countBytes clipped ++ countBytes pool
  | .badList reason pos =>
    choiceByte reason.code ++ optionalBytes 2 (pos.map countBytes)
  | .list bank active time pool entries =>
    choiceByte bank.code ++ yesNo active ++ timeBytes time ++ countBytes pool
      ++ countBytes entries.length ++ listBytes entries Entry.bytes
  | .captured bank pool => choiceByte bank.code ++ countBytes pool
  | .freeRecord time number => timeBytes time ++ [byteOf number.val] ++ choiceByte 0
  | .liveRecord time r => timeBytes time ++ r.bytes
  | .sources time bank entries next =>
    timeBytes time ++ choiceByte bank.code ++ listBytes entries SourceEntry.bytes
      ++ optionalBytes 1 (next.map fun n => [byteOf n])
  | .target time settle postscaler divergence hold frozen residual =>
    timeBytes time ++ countBytes settle ++ countBytes postscaler ++ countBytes divergence
      ++ countBytes hold ++ yesNo frozen ++ intBytes residual
  | .station time effective detected force lastM y2 shockHold residual =>
    timeBytes time ++ choiceByte effective.code ++ choiceByte detected.code
      ++ forceByte (force.map Lock.code) ++ intBytes lastM ++ intBytes y2 ++ countBytes shockHold
      ++ intBytes residual
  | .cache r => r.bytes
  | .port p => choiceByte p.code
  | .presence effective detected force goodRun missRun drive =>
    choiceByte effective.code ++ choiceByte detected.code ++ forceByte (force.map Presence.code)
      ++ countBytes goodRun ++ countBytes missRun ++ choiceByte (driveCode drive)
  | .suppression state hold clearRequested mode =>
    choiceByte state.code ++ countBytes hold ++ yesNo clearRequested ++ choiceByte mode.code
  | .shortened lowered awaiting => countBytes lowered ++ countBytes awaiting

/-- The bytes of a response: status, 16-bit length, payload (R164, R176). -/
def Response.bytes (r : Response) : List Byte :=
  [byteOf r.status.code] ++ countBytes r.body.bytes.length ++ r.body.bytes

/-- Byte i that a transaction clocks out: the response's bytes, and 00h after them (R164). -/
def Transaction.clockOut (t : Transaction) (i : Nat) : Byte := t.out.bytes.getD i 0

/-- The bit that data out carries after n falling edges of the clock in a transaction, so that bit 0
is valid from the falling edge of select: each byte most significant bit first (R164). -/
def Transaction.bitOut (t : Transaction) (n : Nat) : Bool := (t.clockOut (n / 8)).getMsbD (n % 8)

end Sys2Proof.Machine
end

