-- ==== Sys2Proof/Decode.lean ====
section
/-! DEFINITION. Reading commands from the bytes and words that cross the part's ports (spec/10), and
writing them: the upstream messages of a row link, the words of the sensor link, the pages of the
profile store and the frames of the management port. Each reader is total. No row of
spec/opcode_table.json gives bits, so `decodeTableWord` reads no command from a table word. -/

namespace Sys2Proof

open Machine

/-! ### Upstream messages (R173, R174, R154) -/

/-- The kinds of an upstream message (R174). -/
inductive Kind where
  | notice
  | amend
  | withdraw
  | close
  | status
  deriving DecidableEq, Repr

/-- A kind's number (R174). -/
def Kind.code : Kind → BitVec 3
  | .notice => 1
  | .amend => 2
  | .withdraw => 3
  | .close => 4
  | .status => 5

/-- The kind of a number; 0, 6 and 7 are unknown kinds (R174). -/
def kindOf (b : BitVec 3) : Option Kind :=
  match b.toNat with
  | 1 => some .notice
  | 2 => some .amend
  | 3 => some .withdraw
  | 4 => some .close
  | 5 => some .status
  | _ => none

/-- The ten bytes of an upstream message (R173). -/
structure Upstream where
  b0 : Byte
  b1 : Byte
  b2 : Byte
  b3 : Byte
  b4 : Byte
  b5 : Byte
  b6 : Byte
  b7 : Byte
  b8 : Byte
  b9 : Byte
  deriving DecidableEq, Repr

/-- The bytes of an upstream message in their order. -/
def Upstream.bytes (u : Upstream) : List Byte :=
  [u.b0, u.b1, u.b2, u.b3, u.b4, u.b5, u.b6, u.b7, u.b8, u.b9]

/-- The first ten bytes received; with fewer the message is incomplete (R153, R173). -/
def upstreamOf : List Byte → Option Upstream
  | b0 :: b1 :: b2 :: b3 :: b4 :: b5 :: b6 :: b7 :: b8 :: b9 :: _ =>
    some ⟨b0, b1, b2, b3, b4, b5, b6, b7, b8, b9⟩
  | _ => none

/-- A 3-bit tag field: byte 1, bits 7–5 (R173). -/
def Upstream.tag (u : Upstream) : Tag := (u.b1.extractLsb' 5 3).toFin

/-- The length limit of a NOTICE: absent when its present bit is 0 (R173, R174). -/
def Upstream.limit (u : Upstream) : Option Nat :=
  if u.b1.getLsbD 4 then some (u.b7.extractLsb' 0 1 ++ u.b8).toNat else none

/-- The profile of a NOTICE: 9 bits (R173, R174). -/
def Upstream.profile (u : Upstream) : ProfileId := (u.b1.extractLsb' 0 1 ++ u.b2).toFin

/-- The drive state of a STATUS; 3 is out of encoding (R174). -/
def driveOf (b : BitVec 2) : Option DriveState :=
  match b.toNat with
  | 0 => some .active
  | 1 => some .idle
  | 2 => some .parked
  | _ => none

/-- The fields of a NOTICE (R173). -/
def Upstream.notice (u : Upstream) : NoticeFields where
  tag := u.tag
  profile := u.profile
  scale := halfOf u.b3 u.b4
  start := halfOf u.b5 u.b6
  limit := u.limit

/-- The fields of an AMEND (R173). -/
def Upstream.amend (u : Upstream) : AmendFields where
  tag := u.tag
  start := if u.b1.getLsbD 4 then some (halfOf u.b5 u.b6) else none
  scale := if u.b1.getLsbD 3 then some (halfOf u.b3 u.b4) else none

/-- The fields of a STATUS with a drive state (R173). -/
def Upstream.status (u : Upstream) (d : DriveState) : StatusFields where
  drive := d
  shock := u.b1.getLsbD 5
  residual := halfOf u.b3 u.b4
  frameTag := (u.b1.extractLsb' 0 3).toFin

/-- The command of a message of a kind, by its fields; a field outside its encoding makes it
malformed (R154). -/
def commandOf (slot : Slot) (k : Kind) (u : Upstream) : Instr :=
  match k with
  | .notice => if u.notice.wellFormed then .notice slot u.notice else .malformedMessage slot
  | .amend => if u.amend.wellFormed then .amend slot u.amend else .malformedMessage slot
  | .withdraw => .withdraw slot u.tag
  | .close => .close slot u.tag (halfOf u.b5 u.b6)
  | .status =>
    match driveOf (u.b1.extractLsb' 6 2) with
    | some d => .status slot (u.status d)
    | none => .malformedMessage slot

/-- The command that a message taken in a slot's window stands for: the check, the kind, the
position and the encodings are tested (R154). -/
def decodeUpstream (slot : Slot) (u : Upstream) : Instr :=
  if byteSum u.bytes ≠ checkSum then .malformedMessage slot
  else if (u.b0.extractLsb' 1 4).toNat ≠ position slot then .malformedMessage slot
  else match kindOf (u.b0.extractLsb' 5 3) with
    | none => .malformedMessage slot
    | some k => commandOf slot k u

/-- The first byte of a message: kind, position, and an unused bit sent as 0 (R173). -/
def headByte (k : Kind) (slot : Slot) : Byte :=
  k.code ++ BitVec.ofNat 4 (position slot) ++ (0 : BitVec 1)

/-- A message from its first nine bytes (R173). -/
def sealed (b0 b1 b2 b3 b4 b5 b6 b7 b8 : Byte) : Upstream :=
  ⟨b0, b1, b2, b3, b4, b5, b6, b7, b8, checkByte [b0, b1, b2, b3, b4, b5, b6, b7, b8]⟩

/-- The high byte of a 16-bit field. -/
def hiByte (h : Half) : Byte := h.extractLsb' 8 8

/-- The low byte of a 16-bit field. -/
def loByte (h : Half) : Byte := h.extractLsb' 0 8

/-- A tag as three bits. -/
def tagBits (t : Tag) : BitVec 3 := BitVec.ofNat 3 t.val

/-- A truth value as one bit. -/
def oneBit (b : Bool) : BitVec 1 := BitVec.ofBool b

/-- The ten bytes of a drive message, unused bits and bytes 0 (R173); none for a command that is no
well-formed drive message. -/
def encodeUpstream : Instr → Option Upstream
  | .notice slot m =>
    let p := BitVec.ofNat 9 m.profile.val
    let l := BitVec.ofNat 9 (m.limit.getD 0)
    some (sealed (headByte .notice slot)
      (tagBits m.tag ++ oneBit m.limit.isSome ++ (0 : BitVec 3) ++ p.extractLsb' 8 1)
      (p.extractLsb' 0 8) (hiByte m.scale) (loByte m.scale) (hiByte m.start) (loByte m.start)
      ((0 : BitVec 7) ++ l.extractLsb' 8 1) (l.extractLsb' 0 8))
  | .amend slot m =>
    let st := m.start.getD 0
    let sc := m.scale.getD 0
    some (sealed (headByte .amend slot)
      (tagBits m.tag ++ oneBit m.start.isSome ++ oneBit m.scale.isSome ++ (0 : BitVec 3))
      0 (hiByte sc) (loByte sc) (hiByte st) (loByte st) 0 0)
  | .withdraw slot tag =>
    some (sealed (headByte .withdraw slot) (tagBits tag ++ (0 : BitVec 5)) 0 0 0 0 0 0 0)
  | .close slot tag stamp =>
    some (sealed (headByte .close slot) (tagBits tag ++ (0 : BitVec 5)) 0 0 0
      (hiByte stamp) (loByte stamp) 0 0)
  | .status slot m =>
    some (sealed (headByte .status slot)
      (BitVec.ofNat 2 (driveCode m.drive) ++ oneBit m.shock ++ (0 : BitVec 2) ++ tagBits m.frameTag)
      0 (hiByte m.residual) (loByte m.residual) 0 0 0 0)
  | _ => none

/-! ### Sensor link words (R175) -/

/-- The command of a received sensor word: 24 bits, and the stop bit (R175). -/
def decodeSensor (word : BitVec 24) (stop : Bool) : Instr :=
  if stop = false then .discardedWord
  else match (word.extractLsb' 22 2).toNat with
    | 1 => .channelWord (word.extractLsb' 16 6) (word.extractLsb' 0 16)
    | 2 => .sweepEnd (word.extractLsb' 0 16)
    | _ => .discardedWord

/-- The word of a channel word or of a SWEEP-END, unused bits 0 (10.2). -/
def encodeSensor : Instr → Option (BitVec 24)
  | .channelWord tag value => some ((1 : BitVec 2) ++ tag ++ value)
  | .sweepEnd stamp => some ((2 : BitVec 2) ++ (0 : BitVec 6) ++ stamp)
  | _ => none

/-- The bits of a sensor word on the line: a start bit of 0, 24 data bits most significant first,
and the stop bit (R175). -/
def sensorBits (word : BitVec 24) (stop : Bool) : List Bool :=
  false :: ((List.finRange 24).map fun i => word.getMsbD i.val) ++ [stop]

/-- The receiver of the sensor link between two bits of its line. -/
inductive SensorReceiver where
  /-- no word is being received -/
  | idle
  /-- a start bit and n data bits have been sampled, these the bits so far -/
  | word (n : Nat) (data : BitVec 24)
  deriving DecidableEq, Repr

/-- One bit of the sensor line is sampled: a start bit of 0 opens a word, its data bits follow, and
with its stop bit, whatever it reads, the word is received (R175). DESIGN CHOICE (assumption 20):
between words the line reads 1, and the first 0 after a stop bit is the next start bit. -/
def SensorReceiver.bit (r : SensorReceiver) (b : Bool) : SensorReceiver × Option Instr :=
  match r with
  | .idle => if b then (.idle, none) else (.word 0 0, none)
  | .word n data =>
    if n < 24 then (.word (n + 1) (data.extractLsb' 0 23 ++ BitVec.ofBool b), none)
    else (.idle, some (decodeSensor data b))

/-- The commands of the words that the bits of the sensor line bring (R175). -/
def SensorReceiver.words : SensorReceiver → List Bool → List Instr
  | _, [] => []
  | r, b :: rest => (r.bit b).2.toList ++ (r.bit b).1.words rest

/-! ### Profile pages (R29, R30) -/

/-- The marker of a page that holds a profile (R29). -/
def pageMarker : Half := 0x6D31

/-- Bytes as big-endian 16-bit words. -/
def halvesOf : List Byte → List Half
  | hi :: lo :: rest => halfOf hi lo :: halvesOf rest
  | _ => []

/-- The sum of words modulo 65536. -/
def halfSum (l : List Half) : Half := l.foldr (· + ·) 0

/-- A page's samples if the page is good: marker, length, check over length and samples (R30). Bytes
that the store does not give, and those after the last sample, are not read. -/
def goodPage : List Half → Option (List Half)
  | marker :: len :: check :: rest =>
    let p := rest.take len.toNat
    if marker = pageMarker ∧ 1 ≤ len.toNat ∧ len.toNat ≤ 256 ∧ p.length = len.toNat
        ∧ len + halfSum p = check then some p
    else none
  | _ => none

/-- The completion that a fetch's page gives (R30, R40, R41). -/
def decodePage (bytes : List Byte) : Instr :=
  match goodPage (halvesOf bytes) with
  | some p => .fetchCompleteGood p
  | none => .fetchCompleteBad

/-- The bytes of the page that a fetch reads: the header alone where its marker or length is bad
(R29). -/
def pageBytesRead (marker len : Half) : Nat :=
  if marker = pageMarker ∧ 1 ≤ len.toNat ∧ len.toNat ≤ 256 then 6 + 2 * len.toNat else 6

/-- The words of a good page with these samples (R29, R30). -/
def encodePage (p : List Half) : List Half :=
  pageMarker :: BitVec.ofNat 16 p.length :: (BitVec.ofNat 16 p.length + halfSum p) :: p

/-! ### Management frames (R164, R165, R176) -/

/-- A payload without fields. -/
def payload0 : List Byte → Payload Unit
  | [] => .fields ()
  | _ => .wrongLength

/-- A payload of one byte. -/
def payload1 : List Byte → Payload Byte
  | [a] => .fields a
  | _ => .wrongLength

/-- A payload of one 16-bit field. -/
def payloadHalf : List Byte → Payload Half
  | [a, b] => .fields (halfOf a b)
  | _ => .wrongLength

/-- A payload of a number and a mode. -/
def payloadForce : List Byte → Payload ForceArgs
  | [a, b] => .fields ⟨a, b⟩
  | _ => .wrongLength

/-- The payload of SETTING-WRITE. -/
def payloadSettingWrite : List Byte → Payload (SettingAddr × SettingValue)
  | [r, n, c, k, hi, lo] => .fields (⟨r, n⟩, ⟨c, k, halfOf hi lo⟩)
  | _ => .wrongLength

/-- The payload of SETTING-READ. -/
def payloadSettingRead : List Byte → Payload SettingAddr
  | [r, n] => .fields ⟨r, n⟩
  | _ => .wrongLength

/-- Coupling entries of four bytes each, or none where the bytes do not divide (R176). -/
def rawEntries : List Byte → Option (List RawEntry)
  | [] => some []
  | t :: hi :: lo :: d :: rest => (rawEntries rest).map fun l => ⟨t, halfOf hi lo, d⟩ :: l
  | _ => none

/-- The payload of LIST-WRITE: 1 + 4n bytes (R176). -/
def payloadListWrite : List Byte → Payload ListWriteArgs
  | source :: rest =>
    match rawEntries rest with
    | some l => .fields ⟨source, l⟩
    | none => .wrongLength
  | [] => .wrongLength

/-- The payload of LIST-READ. -/
def payloadListRead : List Byte → Payload ListReadArgs
  | [b, s] => .fields ⟨b, s⟩
  | _ => .wrongLength

/-- The payload of SOURCE-QUERY. -/
def payloadSourceQuery : List Byte → Payload SourceQueryArgs
  | [f, n, s, t] => .fields ⟨f, n, s, t⟩
  | _ => .wrongLength

/-- The payload of SOURCE-LIST. -/
def payloadSourceList : List Byte → Payload SourceListArgs
  | [f, c, s] => .fields ⟨f, c, s⟩
  | _ => .wrongLength

/-- The command of a code and a payload (R176). -/
def commandOfCode (code : Byte) (p : List Byte) : Instr :=
  match code.toNat with
  | 0x01 => .identify (payload0 p)
  | 0x02 => .readFlags (payload0 p)
  | 0x03 => .setAlertMask (payloadHalf p)
  | 0x04 => .settingWrite (payloadSettingWrite p)
  | 0x05 => .settingRead (payloadSettingRead p)
  | 0x06 => .listWrite (payloadListWrite p)
  | 0x07 => .listRead (payloadListRead p)
  | 0x08 => .capture (payload0 p)
  | 0x09 => .swapCancel (payload0 p)
  | 0x0A => .sourceQuery (payloadSourceQuery p)
  | 0x0B => .sourceList (payloadSourceList p)
  | 0x0C => .targetRead (payload1 p)
  | 0x0D => .stationRead (payload1 p)
  | 0x0E => .cacheRead (payload0 p)
  | 0x0F => .preload (payloadHalf p)
  | 0x10 => .retry (payloadHalf p)
  | 0x11 => .swapRequest (payload0 p)
  | 0x13 => .drop (payloadHalf p)
  | 0x14 => .lend (payload0 p)
  | 0x15 => .reclaim (payload0 p)
  | 0x16 => .forcePresence (payloadForce p)
  | 0x17 => .forceLock (payloadForce p)
  | 0x18 => .suppressClear (payload1 p)
  | 0x19 => .holdShorten (payload1 p)
  | 0x1A => .restartWarm (payload0 p)
  | 0x1B => .restartCold (payload0 p)
  | _ => .unknownCommand code

/-- A command whose frame brought fewer payload bytes than its length byte says (R165). -/
def shortFrame (code : Byte) : Instr :=
  match code.toNat with
  | 0x01 => .identify .wrongLength
  | 0x02 => .readFlags .wrongLength
  | 0x03 => .setAlertMask .wrongLength
  | 0x04 => .settingWrite .wrongLength
  | 0x05 => .settingRead .wrongLength
  | 0x06 => .listWrite .wrongLength
  | 0x07 => .listRead .wrongLength
  | 0x08 => .capture .wrongLength
  | 0x09 => .swapCancel .wrongLength
  | 0x0A => .sourceQuery .wrongLength
  | 0x0B => .sourceList .wrongLength
  | 0x0C => .targetRead .wrongLength
  | 0x0D => .stationRead .wrongLength
  | 0x0E => .cacheRead .wrongLength
  | 0x0F => .preload .wrongLength
  | 0x10 => .retry .wrongLength
  | 0x11 => .swapRequest .wrongLength
  | 0x13 => .drop .wrongLength
  | 0x14 => .lend .wrongLength
  | 0x15 => .reclaim .wrongLength
  | 0x16 => .forcePresence .wrongLength
  | 0x17 => .forceLock .wrongLength
  | 0x18 => .suppressClear .wrongLength
  | 0x19 => .holdShorten .wrongLength
  | 0x1A => .restartWarm .wrongLength
  | 0x1B => .restartCold .wrongLength
  | _ => .unknownCommand code

/-- The command of the bytes clocked in by a transaction (R164): none with fewer than two bytes;
bytes beyond the first 2 + L are ignored; fewer than L payload bytes is a wrong length. -/
def decodeFrame : List Byte → Option Instr
  | code :: len :: rest =>
    if rest.length < len.toNat then some (shortFrame code)
    else some (commandOfCode code (rest.take len.toNat))
  | _ => none

/-- The bytes of a payload that carries no field. -/
def unitBytes : Payload Unit → Option (List Byte)
  | .fields _ => some []
  | .wrongLength => none

/-- The bytes of a payload of one byte. -/
def oneByte : Payload Byte → Option (List Byte)
  | .fields a => some [a]
  | .wrongLength => none

/-- The bytes of a payload of one 16-bit field. -/
def halfPayload : Payload Half → Option (List Byte)
  | .fields h => some [hiByte h, loByte h]
  | .wrongLength => none

/-- The bytes of a number and a mode. -/
def forceBytes : Payload ForceArgs → Option (List Byte)
  | .fields a => some [a.index, a.mode]
  | .wrongLength => none

/-- The bytes of an entry as LIST-WRITE carries it. -/
def RawEntry.bytes (e : RawEntry) : List Byte := [e.target, hiByte e.gain, loByte e.gain, e.delay]

/-- The code and the payload of a management command whose payload has a length it accepts
(R176). -/
def frameParts : Instr → Option (Byte × List Byte)
  | .identify p => (unitBytes p).map fun l => (0x01, l)
  | .readFlags p => (unitBytes p).map fun l => (0x02, l)
  | .setAlertMask p => (halfPayload p).map fun l => (0x03, l)
  | .settingWrite (.fields (a, v)) =>
    some (0x04, [a.record, a.name, v.choice, v.station, hiByte v.value, loByte v.value])
  | .settingRead (.fields a) => some (0x05, [a.record, a.name])
  | .listWrite (.fields a) => some (0x06, a.source :: a.entries.flatMap RawEntry.bytes)
  | .listRead (.fields a) => some (0x07, [a.bank, a.source])
  | .capture p => (unitBytes p).map fun l => (0x08, l)
  | .swapCancel p => (unitBytes p).map fun l => (0x09, l)
  | .sourceQuery (.fields a) => some (0x0A, [a.form, a.number, a.slot, a.tag])
  | .sourceList (.fields a) => some (0x0B, [a.first, a.slotChoice, a.slot])
  | .targetRead p => (oneByte p).map fun l => (0x0C, l)
  | .stationRead p => (oneByte p).map fun l => (0x0D, l)
  | .cacheRead p => (unitBytes p).map fun l => (0x0E, l)
  | .preload p => (halfPayload p).map fun l => (0x0F, l)
  | .retry p => (halfPayload p).map fun l => (0x10, l)
  | .swapRequest p => (unitBytes p).map fun l => (0x11, l)
  | .drop p => (halfPayload p).map fun l => (0x13, l)
  | .lend p => (unitBytes p).map fun l => (0x14, l)
  | .reclaim p => (unitBytes p).map fun l => (0x15, l)
  | .forcePresence p => (forceBytes p).map fun l => (0x16, l)
  | .forceLock p => (forceBytes p).map fun l => (0x17, l)
  | .suppressClear p => (oneByte p).map fun l => (0x18, l)
  | .holdShorten p => (oneByte p).map fun l => (0x19, l)
  | .restartWarm p => (unitBytes p).map fun l => (0x1A, l)
  | .restartCold p => (unitBytes p).map fun l => (0x1B, l)
  | _ => none

/-- The bytes of a management command's frame: code, length, payload (R164). -/
def encodeFrame (i : Instr) : Option (List Byte) :=
  (frameParts i).map fun x => x.1 :: BitVec.ofNat 8 x.2.length :: x.2

/-! ### The table's words -/

/-- The command a word of the opcode table spells: no row of the table gives bits, so none. -/
def decodeTableWord (_nbits _w : Nat) : Option Instr := none

end Sys2Proof
end

