-- ==== Sys2Proof/Machine/Resets.lean ====
section
/-! DEFINITION. The resets (R171, R172 and each chapter's reset rules): what a cold and a warm reset
leave, and the commands and lines that bring them about. -/

namespace Sys2Proof.Machine

/-! ### Warm reset -/

/-- A cache slot after a warm reset: a FILLING slot is abandoned and EMPTY, a FILLED slot is kept
with count 0 (R51). -/
def CacheSlot.warm : CacheSlot → CacheSlot
  | .filled id p _ => .filled id p 0
  | _ => .empty

/-- The port state after a warm reset: LEND-PENDING becomes LENT (R51). -/
def PortState.warm : PortState → PortState
  | .owned => .owned
  | .lendPending => .lent
  | .lent => .lent

/-- The Profile Cache after a warm reset (R51). -/
def ProfileCache.warm (c : ProfileCache) : ProfileCache where
  slots := c.slots.map CacheSlot.warm
  lru := c.lru
  queue := []
  unusable := noUnusable
  flight := none
  port := c.port.warm

/-- An adaptation record after a warm reset (R117). -/
def AdaptRecord.warm (settle : Nat) (a : AdaptRecord) : AdaptRecord :=
  { a with settle := settle, postscaler := 0, hold := 0 }

/-- A station after a warm reset in frame f (R138, R121). -/
def StationState.warm (f : Frame) (st : StationState) : StationState :=
  { st with
    pendingA := none, pair := none, y1 := 0, y2 := 0
    older := freshAccount (f - 1) false, newer := freshAccount f false, shockHold := 0 }

/-- A slot's row link side after a warm reset: presence and the window in progress are kept, the
drive state becomes IDLE, and a window whose evaluation was in flight sends the cut block (R163,
R75). -/
def LinkSlot.warm (l : LinkSlot) : LinkSlot :=
  { l with drive := .idle, window := l.window.abandon cutBlock }

/-- The held response after a warm reset: BUSY if a command was abandoned, otherwise kept (R166,
R172). -/
def heldAfterWarm (p : ManagementPort) : Response :=
  if p.executing.isSome then bare .busy else p.held

/-- The management port after a warm reset (R172). A transaction in progress runs on with what it
clocks out; its frame is judged with no command in execution. -/
def ManagementPort.warm (cause : ResetCause) (p : ManagementPort) : ManagementPort where
  held := heldAfterWarm p
  executing := none
  transaction := p.transaction.map fun t => { t with refused := false }
  cutOff := p.cutOff
  latched := 0
  mask := p.mask
  cause := cause

/-- A warm reset takes effect in one moment, after the boundary of its chassis time (R171). Both
banks stand (R69). DESIGN CHOICE (assumption 17): a CAPTURE that it abandons before the first grant
has emptied nothing, so the staging lists stay as they were; R59 and R69 say that lists not reached
are empty, of a CAPTURE whose staging bank has been emptied. -/
def warmReset (cause : ResetCause) (s : State) : State :=
  let s := takeBoundary s
  { s with
    table := emptyTable
    cache := s.cache.warm
    store := { s.store with swapPending := false }
    prediction := emptyPrediction
    adaptation :=
      ⟨s.adaptation.records.map (AdaptRecord.warm s.settings.global.settle), [], none, false⟩
    stations := s.stations.map (StationState.warm (frameOf s.now))
    suppression := Vector.replicate 96 clearSuppression
    links := { s.links with slots := s.links.slots.map LinkSlot.warm }
    port := s.port.warm cause }

/-- WARM-LINE: a falling edge of WRST (R171). A warm reset that comes while a cold reset is being
held has no effect. -/
def execWarmLine (s : State) : Host.Outcome State Fault Refusal :=
  afterEvents (warmReset .warmLine) s

/-- RESTART WARM answers OK, and then the warm reset takes effect (R171). -/
def execRestartWarm (p : Payload Unit) (s : State) : Host.Outcome State Fault Refusal :=
  manage p (fun _ s => warmReset .restartWarm (respond okResponse s)) s

/-! ### Cold reset -/

/-- A cold reset of a cause takes the part, at any moment and in full (R171), and cuts off a
transaction in progress (R172); the queue of commands that wait is not the part's. -/
def coldReset (cause : ResetCause) (s : State) : State :=
  State.cold cause (s.port.transaction.isSome || s.port.cutOff) s.pending

/-- RESTART COLD answers OK, its response becomes the held response, and the cold reset takes effect
at once (R171, R172). -/
def execRestartCold (p : Payload Unit) (s : State) : Host.Outcome State Fault Refusal :=
  manage p (fun _ s => coldReset .restartCold s) s

/-- RESET-LINE: RESET goes low and the part is held reset (R171). -/
def execResetLine (s : State) : Host.Outcome State Fault Refusal := .next (coldReset .resetLine s)

/-- POWER-UP: the part is held reset until its supply is stable (R171). -/
def execPowerUp (s : State) : Host.Outcome State Fault Refusal := .next (coldReset .powerUp s)

/-- COLD-RESET-END: RESET goes high, the supply is stable, or a RESTART COLD's reset ends; the row
links open frame 0 (R162, R171). Where no cold reset is held there is no such event. DESIGN CHOICE
(assumption 21): R171 does not say what ends the reset where POWER-UP and RESET-LINE hold the part
at once and one of them ends first; here the part keeps the cause of the later, and the one event
ends the reset. -/
def execColdResetEnd (s : State) : Host.Outcome State Fault Refusal :=
  .next (if s.coldReset.isSome then endColdReset s else s)

end Sys2Proof.Machine
end

