-- ==== Sys2Proof/Machine/Dispatch.lean ====
section
/-! DEFINITION. One arm per row of spec/opcode_table.json: each calls the command's own meaning. -/

namespace Sys2Proof.Machine

def exec (i : Instr) (s : State) : Host.Outcome State Fault Refusal :=
  match i with
  | .chassisTimeAdvance => Sys2Proof.Machine.execChassisTimeAdvance s
  | .frameBoundary beforeSwap => Sys2Proof.Machine.execFrameBoundary beforeSwap s
  | .settleEnd t => Sys2Proof.Machine.execSettleEnd t s
  | .divergenceHoldEnd t => Sys2Proof.Machine.execDivergenceHoldEnd t s
  | .shockHoldEnd k => Sys2Proof.Machine.execShockHoldEnd k s
  | .holdExpiry slot => Sys2Proof.Machine.execHoldExpiry slot s
  | .recordStartReached r => Sys2Proof.Machine.execRecordStartReached r s
  | .recordEndReached r => Sys2Proof.Machine.execRecordEndReached r s
  | .retirement r => Sys2Proof.Machine.execRetirement r s
  | .notice slot m => Sys2Proof.Machine.execNotice slot m s
  | .amend slot m => Sys2Proof.Machine.execAmend slot m s
  | .withdraw slot tag => Sys2Proof.Machine.execWithdraw slot tag s
  | .close slot tag stamp => Sys2Proof.Machine.execClose slot tag stamp s
  | .status slot m => Sys2Proof.Machine.execStatus slot m s
  | .malformedMessage slot => Sys2Proof.Machine.execMalformedMessage slot s
  | .upstreamPhaseEnd slot => Sys2Proof.Machine.execUpstreamPhaseEnd slot s
  | .predictionListRead => Sys2Proof.Machine.execPredictionListRead s
  | .evaluationEnd t => Sys2Proof.Machine.execEvaluationEnd t s
  | .feed slot => Sys2Proof.Machine.execFeed slot s
  | .gainUpdate => Sys2Proof.Machine.execGainUpdate s
  | .channelWord tag value => Sys2Proof.Machine.execChannelWord tag value s
  | .sweepEnd stamp => Sys2Proof.Machine.execSweepEnd stamp s
  | .discardedWord => Sys2Proof.Machine.execDiscardedWord s
  | .fetchStart => Sys2Proof.Machine.execFetchStart s
  | .fetchCompleteGood samples => Sys2Proof.Machine.execFetchCompleteGood samples s
  | .fetchCompleteBad => Sys2Proof.Machine.execFetchCompleteBad s
  | .identify p => Sys2Proof.Machine.execIdentify p s
  | .readFlags p => Sys2Proof.Machine.execReadFlags p s
  | .setAlertMask p => Sys2Proof.Machine.execSetAlertMask p s
  | .settingWrite p => Sys2Proof.Machine.execSettingWrite p s
  | .settingRead p => Sys2Proof.Machine.execSettingRead p s
  | .listWrite p => Sys2Proof.Machine.execListWrite p s
  | .listWriteGrant => Sys2Proof.Machine.execListWriteGrant s
  | .listRead p => Sys2Proof.Machine.execListRead p s
  | .listReadGrant => Sys2Proof.Machine.execListReadGrant s
  | .capture p => Sys2Proof.Machine.execCapture p s
  | .captureEmptyGrant => Sys2Proof.Machine.execCaptureEmptyGrant s
  | .captureCopyGrant => Sys2Proof.Machine.execCaptureCopyGrant s
  | .swapRequest p => Sys2Proof.Machine.execSwapRequest p s
  | .swapCancel p => Sys2Proof.Machine.execSwapCancel p s
  | .sourceQuery p => Sys2Proof.Machine.execSourceQuery p s
  | .sourceList p => Sys2Proof.Machine.execSourceList p s
  | .sourceListGrant => Sys2Proof.Machine.execSourceListGrant s
  | .targetRead p => Sys2Proof.Machine.execTargetRead p s
  | .stationRead p => Sys2Proof.Machine.execStationRead p s
  | .cacheRead p => Sys2Proof.Machine.execCacheRead p s
  | .preload p => Sys2Proof.Machine.execPreload p s
  | .retry p => Sys2Proof.Machine.execRetry p s
  | .drop p => Sys2Proof.Machine.execDrop p s
  | .lend p => Sys2Proof.Machine.execLend p s
  | .reclaim p => Sys2Proof.Machine.execReclaim p s
  | .forcePresence p => Sys2Proof.Machine.execForcePresence p s
  | .forceLock p => Sys2Proof.Machine.execForceLock p s
  | .suppressClear p => Sys2Proof.Machine.execSuppressClear p s
  | .holdShorten p => Sys2Proof.Machine.execHoldShorten p s
  | .restartWarm p => Sys2Proof.Machine.execRestartWarm p s
  | .restartCold p => Sys2Proof.Machine.execRestartCold p s
  | .unknownCommand code => Sys2Proof.Machine.execUnknownCommand code s
  | .warmLine => Sys2Proof.Machine.execWarmLine s
  | .resetLine => Sys2Proof.Machine.execResetLine s
  | .powerUp => Sys2Proof.Machine.execPowerUp s
  | .coldResetEnd => Sys2Proof.Machine.execColdResetEnd s
  | .transactionStart => Sys2Proof.Machine.execTransactionStart s

end Sys2Proof.Machine
end

