-- ==== Sys2Proof/Machine/Step.lean ====
section
/-! DEFINITION. One step: the command at the front of the queue is taken and its meaning runs with
the queue's rest; on an empty queue the part idles (assumption 1). And what the ports put on the
queue. -/

namespace Sys2Proof.Machine

/-- The state with another queue of commands that wait. -/
def State.withQueue (s : State) (q : List Instr) : State := { s with pending := q }

/-- One step of the part: the front command's meaning on the state with the queue's rest. -/
def step (s : State) : Host.Outcome State Fault Refusal :=
  match s.pending with
  | [] => .next s
  | c :: rest => exec c (s.withQueue rest)

/-- The state with a command put at the front of its queue. -/
def State.pushFront (s : State) (c : Instr) : State := s.withQueue (c :: s.pending)

/-- The state with a command put at the back of its queue: it waits its turn. -/
def State.send (s : State) (c : Instr) : State := s.withQueue (s.pending ++ [c])

/-- The state with the command that a table word spells at the front of its queue. No row of the
table gives bits, so no word spells one. -/
def State.withFetchWord (s : State) (nbits w : Nat) : State :=
  match decodeTableWord nbits w with
  | some c => s.pushFront c
  | none => s

/-- What a slot's drive sends in the upstream phase of its window, bit by bit: fewer than ten bytes
are an incomplete message, which the end of the phase discards (R153, R173). -/
def State.upstream (s : State) (slot : Slot) (bits : List Bool) : State :=
  match upstreamOf (bytesOfBits bits) with
  | some u => s.send (decodeUpstream slot u)
  | none => s

/-- The bits that the sensor link brings from a moment at which no word is being received: each word
that they complete is received (R175). -/
def State.sensorLine (s : State) (bits : List Bool) : State :=
  (SensorReceiver.idle.words bits).foldl State.send s

/-- A page as a fetch has read it (R30). -/
def State.page (s : State) (bytes : List Byte) : State := s.send (decodePage bytes)

/-- A transaction of the management port, by the bits sampled on the rising edges of its clock: its
start, and the frame taken at its end, if it clocked two bytes or more (R164). DESIGN CHOICE
(assumption 19): R164 speaks of bytes clocked in, and of a transaction that ends within a byte it
does not say whether that byte counts; here it does not. -/
def State.spi (s : State) (bits : List Bool) : State :=
  match decodeFrame (bytesOfBits bits) with
  | some c => (s.send .transactionStart).send c
  | none => s.send .transactionStart

end Sys2Proof.Machine
end

