-- ==== Sys2Proof/Safety.lean ====
section
/-! DEFINITION. What counts as a safe state of the DT-96: the laws that the chapters of spec/ say
the part keeps, each as a decidable predicate of the state, and the conditions on a state that the
statements about commands use. -/

namespace Sys2Proof

/-- The slot in whose window an event of the row links falls (R152, R153). -/
def Instr.windowOf : Instr → Option Slot
  | .notice slot _ | .amend slot _ | .withdraw slot _ | .close slot _ _ | .status slot _
  | .malformedMessage slot | .upstreamPhaseEnd slot | .feed slot => some slot
  | _ => none

end Sys2Proof

namespace Sys2Proof.Machine

/-- The place in its window at which an event of the row links comes (R152). -/
def placeOf : Instr → Place
  | .upstreamPhaseEnd _ => .phaseEnd
  | .feed _ => .feed
  | _ => .message

/-! ### Conditions on a state -/

/-- No cold reset is held (R171). -/
abbrev Running (s : State) : Prop := s.coldReset = none

/-- No record has a time event at the present chassis time that is still to be taken (R3). -/
abbrev NoEventDue (s : State) : Prop := ∀ r : RecordNo, recordDue (getRecord r s) s.now = false

/-- The profile of which a NOTICE, or the DROP of a frame, may come at the moment of a fetch start
that would choose its slot (R39, R45). -/
def namedProfile : Instr → Option ProfileId
  | .notice _ m => some m.profile
  | .drop (.fields h) => profileOf h
  | _ => none

/-- A fetch start is due that would choose the very slot of the profile that a command names: either
may come first (R39, R45). -/
def yieldsTo (c : Instr) (s : State) : Bool :=
  match namedProfile c with
  | some id => startYields id s
  | none => false

/-- No fetch start has still to come before a command: its conditions do not all hold (R38), or it
yields to the command (R39, R45). -/
abbrev NoStartBefore (c : Instr) (s : State) : Prop := startDue s = false ∨ yieldsTo c s = true

/-- Nothing that falls at the present moment is still to be taken: no record's time event (R3), no
fetch start (R38), no frame boundary and no fall of a count. -/
abbrev NothingDue (s : State) : Prop := s.boundary = .quiet ∧ NoEventDue s ∧ startDue s = false

/-- A running part whose records' time events, and the fetch start whose conditions hold, have been
taken. -/
abbrev Ready (s : State) : Prop := s.coldReset = none ∧ NoEventDue s ∧ startDue s = false

/-- A running part that is ready, whose next management frame is not refused: its transaction did
not begin while a command was in execution (R165), and was neither cut off by a cold reset nor begun
in one (R172). -/
abbrev TakesFrames (s : State) : Prop := Ready s ∧ frameRefused s = false

/-- The windows before a slot's own are over, on every row (R152). -/
abbrev EarlierWindowsOver (slot : Slot) (s : State) : Prop :=
  ∀ x : Slot, position x < position slot → (getLink x s).window = .over

/-- A part in which the windows before a slot's own are over and the place in the frame for an event
of its window has come (R152). -/
abbrev InPlace (p : Place) (slot : Slot) (s : State) : Prop :=
  EarlierWindowsOver slot s ∧ placeCome p slot s = true

/-- A running part with nothing due, in which an event of a slot's window has its turn. -/
abbrev InTurn (p : Place) (slot : Slot) (s : State) : Prop :=
  s.coldReset = none ∧ NothingDue s ∧ InPlace p slot s

/-- The upstream phase of a slot's window, before any message has been taken in the window and
before the phase has ended on any row (R152, R153). -/
abbrev Unheard (slot : Slot) (s : State) : Prop :=
  (getLink slot s).window = .upstream none ∧
    ∀ x : Slot, position x = position slot → (getLink x s).window.isUpstream = true

/-- A running part in the upstream phase of a slot's window, in its turn and with nothing due, which
has taken no message in it. -/
abbrev Listens (slot : Slot) (s : State) : Prop := InTurn .message slot s ∧ Unheard slot s

/-- The same for a NOTICE, to which a fetch start that is due may yield (R39). -/
abbrev ListensFor (slot : Slot) (m : NoticeFields) (s : State) : Prop :=
  s.coldReset = none ∧ (s.boundary = .quiet ∧ NoEventDue s) ∧ NoStartBefore (.notice slot m) s ∧
    InPlace .message slot s ∧ Unheard slot s

/-- A running part in the FEED phase of a slot's window, or after it: the upstream phases at the
slot's place in the frame have ended on every row (R152). -/
abbrev Feeds (slot : Slot) (s : State) : Prop :=
  InTurn .feed slot s ∧
    ∀ x : Slot, position x = position slot → (getLink x s).window.isUpstream = false

/-- The upstream phases of the window that waits for a slot target's evaluation have ended on every
row (R152). -/
abbrev TurnaroundBegun (t : Target) (s : State) : Prop :=
  ∀ slot : Slot, slotOfTarget t = some slot → (getLink slot s).window.isEvaluating = true →
    ∀ x : Slot, position x = position slot → (getLink x s).window.isUpstream = false

/-- The lowest-numbered slot in a slot's window whose upstream phase has not ended. -/
abbrev FirstUpstream (x slot : Slot) (s : State) : Prop :=
  position x = position slot ∧ (getLink x s).window.isUpstream = true ∧
    ∀ y : Slot, y < x → position y = position slot → (getLink y s).window.isUpstream = false

/-! ### The beginning of an evaluation (R70, R73) -/

/-- A cache slot is FILLED with a profile of these samples, and none below it is with that
profile. -/
def Resident (id : ProfileId) (c : CacheNo) (p : List Int) (s : State) : Prop :=
  (∃ n : Nat, tget s.cache.slots c = .filled id p n) ∧
    ∀ (d : CacheNo) (q : List Int) (n : Nat), d < c → tget s.cache.slots d ≠ .filled id q n

/-- No cache slot is FILLED with a profile. -/
def NotResident (id : ProfileId) (s : State) : Prop :=
  ∀ (c : CacheNo) (p : List Int) (n : Nat), tget s.cache.slots c ≠ .filled id p n

/-- The provisional length of a NOTICE: its limit if it has one, or else the length of its profile
if that is resident, or else 256 (R9). -/
def ProvisionalLength (m : NoticeFields) (s : State) (n : Nat) : Prop :=
  m.limit = some n ∨
    m.limit = none ∧ (NotResident m.profile s ∧ n = 256 ∨
      ∃ (c : CacheNo) (p : List Int), Resident m.profile c p s ∧ n = p.length)

/-- A live record stands in a snapshot with its slot, scale, start, length and E, and with its
profile's samples if the profile is resident (R70). -/
def RecordTaken (s : State) (x : SnapRecord) : Prop :=
  x.slot = (getRecord x.number s).slot ∧ x.scale = (getRecord x.number s).scale ∧
  x.start = (getRecord x.number s).start ∧ x.length = (getRecord x.number s).length ∧
  x.endPoint = (getRecord x.number s).endPoint ∧
  (∀ (c : CacheNo) (p : List Int), Resident (getRecord x.number s).profile c p s →
    x.samples = some p) ∧
  (NotResident (getRecord x.number s).profile s → x.samples = none)

/-- What a slot's evaluation takes beside the records: feed limit, ambient taps with the lock,
shock hold and y2 of their stations, suppression state and last drive state (R70). -/
def SlotTaken (slot : Slot) (s : State) (x : SlotSnap) : Prop :=
  let g := tget s.settings.slots slot
  let tap := fun t : Tap => (⟨t.weight, decide ((getStation t.station s).effective = .locked),
    decide (0 < (getStation t.station s).shockHold), (getStation t.station s).y2⟩ : TapSnap)
  x.limit = g.feedLimit ∧
  x.taps = (match g.tap1, g.tap2 with
    | none, none => []
    | some a, none => [tap a]
    | none, some b => [tap b]
    | some a, some b => [tap a, tap b]) ∧
  x.suppression = (getSuppression slot s).state ∧ x.drive = (getLink slot s).drive

/-- The snapshot of an evaluation of a target (R70): the live records in ascending number, each as
it stands, the blanking width, and a slot target's own part. -/
def SnapshotTaken (t : Target) (s : State) (x : Snapshot) : Prop :=
  (x.records.map (·.number) =
    (List.finRange 128).filter fun r => decide ((getRecord r s).state ≠ .free)) ∧
  (∀ r ∈ x.records, RecordTaken s r) ∧ x.blanking = s.settings.global.blanking ∧
  (∀ slot : Slot, slot.val = t.val → ∃ p, x.slotPart = some p ∧ SlotTaken slot s p) ∧
  (96 ≤ t.val → x.slotPart = none)

/-- The reads that an evaluation makes: one for each source slot with a live record, ascending
(R73). -/
def ReadsOf (s : State) (l : List Slot) : Prop :=
  l = (List.finRange 96).filter fun x =>
    (List.finRange 128).any fun r =>
      decide ((getRecord r s).state ≠ .free) && decide ((getRecord r s).slot = x)

/-- An evaluation right after its beginning (R70, R73): its frame and snapshot, no read made, and
its bank fixed only where it has no read to make. -/
def EvaluationBegun (t : Target) (f : Frame) (s : State) (e : Evaluation) : Prop :=
  e.target = t ∧ e.frame = f ∧ SnapshotTaken t s e.snap ∧ e.done = [] ∧ ReadsOf s e.waiting ∧
  e.bank = if e.waiting = [] then some s.store.active else none

/-! ### The Source Table -/

/-- Each slot's live count is the number of its live records and lies from 0 to 3, and no two live
records of one slot share a tag (R1, R6). -/
abbrev SourceTableLaw (s : State) : Prop :=
  (∀ slot : Slot, getLive slot s = (liveOfSlot slot s).length ∧ getLive slot s ≤ 3) ∧
  ∀ r q : RecordNo, isLive (getRecord r s) → isLive (getRecord q s) →
    (getRecord r s).slot = (getRecord q s).slot → (getRecord r s).tag = (getRecord q s).tag → r = q

/-- A slot whose effective presence state is ABSENT holds no live record (R22). -/
abbrev PresenceLaw (s : State) : Prop :=
  ∀ r : RecordNo, isLive (getRecord r s) → (getLink (getRecord r s).slot s).effective = .present

/-! ### The Profile Cache -/

/-- The id a cache slot holds, FILLED or FILLING (R33). -/
def CacheSlot.heldId : CacheSlot → Option ProfileId
  | .empty => none
  | .filling id => some id
  | .filled id _ _ => some id

/-- A FILLED slot (R33). -/
def CacheSlot.isFilled : CacheSlot → Bool
  | .filled _ _ _ => true
  | _ => false

/-- The id that a slot is FILLING with (R33). -/
def CacheSlot.fillingId : CacheSlot → Option ProfileId
  | .filling id => some id
  | _ => none

/-- The id that the fetch in flight brings to a slot (R38). -/
def ProfileCache.flightTo (c : ProfileCache) (n : CacheNo) : Option ProfileId :=
  match c.flight with
  | some f => if f.slot = n then some f.id else none
  | none => none

/-- A FILLED slot holds 1 to 256 samples (R33). -/
def CacheSlot.lengthOk : CacheSlot → Bool
  | .filled _ p _ => decide (1 ≤ p.length) && decide (p.length ≤ 256)
  | _ => true

/-- The laws of slots, LRU order, queue, unusable set and port (R33, R34, R36, R37, R38). -/
abbrev ProfileCacheLaw (s : State) : Prop :=
  (s.cache.queue.length ≤ 16 ∧ s.cache.queue.Nodup) ∧
  (s.cache.lru.Nodup ∧ ∀ c : CacheNo, c ∈ s.cache.lru ↔ (tget s.cache.slots c).isFilled) ∧
  (∀ c : CacheNo, (tget s.cache.slots c).lengthOk) ∧
  (∀ c d : CacheNo, (tget s.cache.slots c).heldId ≠ none →
    (tget s.cache.slots c).heldId = (tget s.cache.slots d).heldId → c = d) ∧
  (∀ c : CacheNo, (tget s.cache.slots c).fillingId = s.cache.flightTo c) ∧
  (∀ c : CacheNo, ∀ id ∈ s.cache.queue, (tget s.cache.slots c).heldId ≠ some id) ∧
  (∀ id : ProfileId, unusable id s → id ∉ s.cache.queue ∧
    ∀ c : CacheNo, (tget s.cache.slots c).heldId ≠ some id) ∧
  (s.cache.flight.isSome → s.cache.port ≠ .lent)

/-- A FILLED slot's reference count is the number of live records naming its profile. -/
def CacheSlot.countOk (s : State) : CacheSlot → Bool
  | .filled id _ n => decide (n = liveNaming id s)
  | _ => true

/-- The reference count of every FILLED slot is the number of live records naming its profile
(R35). -/
abbrev ReferenceCountLaw (s : State) : Prop :=
  ∀ c : CacheNo, (tget s.cache.slots c).countOk s

/-! ### The Coupling Store -/

/-- A list of a source: at most 24 entries in ascending target order with no duplicate and no self
target (R53). -/
abbrev ListLaw (source : Slot) (l : List Entry) : Prop :=
  l.length ≤ 24 ∧ (l.map (·.target)).Pairwise (· < ·) ∧ ∀ e ∈ l, e.target ≠ slotTarget source

/-- The sum of a bank's list lengths (R54). -/
def Bank.total (b : Bank) : Nat := (b.lists.toList.map List.length).sum

/-- A bank: its lists obey their law, its pool count is the sum of their lengths, at most 1536 (R53,
R54). -/
abbrev BankLaw (b : Bank) : Prop :=
  (∀ source : Slot, ListLaw source (tget b.lists source)) ∧ b.pool = b.total ∧ b.pool ≤ 1536

/-- What holds while a command that writes the staging bank is in execution (3.2, R57, R59). -/
def executingOk (s : State) : Prop :=
  match s.port.executing with
  | some (.listWrite source l _) =>
    s.store.swapPending = false ∧ ListLaw source l ∧
      poolExceeded (s.store.bank s.store.staging) source l.length = false
  | some .captureEmpty => s.store.swapPending = false
  | some (.captureCopy next) =>
    s.store.swapPending = false ∧ ∀ source : Slot,
      (tget (s.store.bank s.store.staging).lists source).length =
        if source < next then (tget (s.store.bank s.store.active).lists source).length else 0
  | _ => True

/-- Both banks obey their law, a writing command in execution was judged on the banks as they stand,
and a transaction open while a command executes has its frame refused (R53, R54, R165). -/
def CouplingStoreLaw (s : State) : Prop :=
  BankLaw s.store.bankA ∧ BankLaw s.store.bankB ∧ executingOk s ∧
  (s.port.executing.isSome → ∀ t ∈ s.port.transaction, t.refused = true)

/-! ### Prediction and adaptation -/

/-- A ring holds at most three records, a record at most 16 contributors, and a station's record is
never SUPPRESSED or PARKED (R81, R88, R91); the evaluations in flight stand in ascending order of
target, one for a target (R73). -/
abbrev RingLaw (s : State) : Prop :=
  (∀ t : Target, (getRing t s).length ≤ 3 ∧
    ∀ r ∈ getRing t s, r.contributors.length ≤ 16 ∧
      (96 ≤ t.val → r.suppressed = false ∧ r.parked = false)) ∧
  (∀ e ∈ s.prediction.evaluations, 96 ≤ e.target.val → e.snap.slotPart = none) ∧
  (s.prediction.evaluations.map (·.target)).Pairwise (· < ·)

/-- A divergence count never exceeds 3, and a target is frozen exactly when its count is 3 (R111).
-/
abbrev DivergenceLaw (s : State) : Prop :=
  ∀ t : Target, (getAdapt t s).divergence ≤ 3 ∧
    ((getAdapt t s).frozen = true ↔ (getAdapt t s).divergence = 3)

/-- The queue holds at most 256 update requests, each step in flight still has one, and none is of a
frozen target (R94, R111); and the same of the moment whose steps are being taken, whose queue is
the engine's. -/
abbrev UpdateQueueLaw (s : State) : Prop :=
  queuedUpdates s.adaptation.steps ≤ 256 ∧
  (∀ st ∈ s.adaptation.steps, st.updates ≠ [] ∧ (getAdapt st.target s).frozen = false) ∧
  ∀ m ∈ s.adaptation.openMoment, s.adaptation.steps = m.queue ∧ queuedUpdates m.before ≤ 256 ∧
    ∀ st ∈ m.before ++ m.taken, st.updates ≠ [] ∧ (getAdapt st.target s).frozen = false

/-! ### Stations and suppression -/

/-- The filter outputs lie within ± 32767, and every filter coefficient setting is 0 to 3 (R127,
R135). -/
abbrev FilterLaw (s : State) : Prop :=
  ∀ k : Station, (getStation k s).y1.natAbs ≤ 32767 ∧ (getStation k s).y2.natAbs ≤ 32767 ∧
    (stationSettings k s).coefficient ≤ 3

/-- The bounds of a frame account: at most one residual for each period taken, each within ± 32767
(R121). -/
abbrev AccountBounds (a : Account) : Prop :=
  a.count + a.missing ≤ 8 ∧ a.sum.natAbs ≤ 32767 * a.count

/-- Every station holds the accounts of the present frame and the one before; while a boundary that
has been reached is still to be taken, those of the two frames before it (R121). -/
abbrev FrameAccountLaw (s : State) : Prop :=
  ∀ k : Station,
    (getStation k s).newer.frame =
      (if s.boundary = .reached then frameOf s.now - 1 else frameOf s.now) ∧
    (getStation k s).older.frame = (getStation k s).newer.frame - 1 ∧
    AccountBounds (getStation k s).older ∧ AccountBounds (getStation k s).newer

/-- The hold of a slot is above 0 exactly in HELD, a clear request stands only in HELD, and the
shock hold setting is at least 1 (R135, R139). -/
abbrev SuppressionLaw (s : State) : Prop :=
  (∀ slot : Slot, ((getSuppression slot s).state = .held ↔ 0 < (getSuppression slot s).hold) ∧
    ((getSuppression slot s).clearRequested = true → (getSuppression slot s).state = .held)) ∧
  1 ≤ s.settings.global.shockHold

/-! ### Row links -/

/-- The place in the frame that a slot's window has come to (R152). -/
def Window.place : Window → Option Place
  | .upstream none => none
  | .upstream (some _) => some .message
  | .feedPhase _ _ => some .phaseEnd
  | .over => some .feed

/-- The windows of a frame run in order: where one has moved on from the beginning of its upstream
phase, every window before it is over (R152). None has moved on before its place in the frame, which
the frame of a boundary still to be taken has not begun (R152). And the evaluation that a window
waits for is in flight, with its bank fixed or a read to make (R71). -/
abbrev WindowLaw (s : State) : Prop :=
  (∀ y : Slot, (getLink y s).window ≠ .upstream none → EarlierWindowsOver y s) ∧
  (s.coldReset = none → s.boundary ≠ .reached → ∀ y : Slot,
    ∀ p ∈ (getLink y s).window.place, placeCome p y s = true) ∧
  ∀ slot : Slot, (getLink slot s).window.isEvaluating = true →
    (findEvaluation (slotTarget slot) s).any (fun e =>
      e.snap.slotPart.isSome && (decide (e.waiting ≠ []) || e.bank.isSome)) = true

/-! ### Settings -/

/-- A value in a range. -/
abbrev Within (lo hi x : Nat) : Prop := lo ≤ x ∧ x ≤ hi

/-- Every numeric setting, the weights of the ambient taps among them, lies in its range (R32, R86,
R95, R135, R158). -/
abbrev SettingsLaw (s : State) : Prop :=
  (Within 0 15 s.settings.global.blanking ∧ Within 0 32767 s.settings.global.theta ∧
    Within 0 63 s.settings.global.settle ∧ Within 1 4095 s.settings.global.divergenceHold ∧
    Within 1 31 s.settings.global.stationLock ∧ Within 1 31 s.settings.global.stationUnlock ∧
    Within 1 1023 s.settings.global.shockHold ∧ Within 1 31 s.settings.global.presenceLock ∧
    Within 1 15 s.settings.global.presenceUnlock ∧ Within 2 16 s.settings.global.divider) ∧
  (∀ t : Target, Within 0 255 (targetSettings t s).mu ∧
    Within 0 4095 (targetSettings t s).deadband ∧
    Within 1 32767 (targetSettings t s).gmax ∧ Within 1 16 (targetSettings t s).interval) ∧
  (∀ slot : Slot, Within 1 32767 (tget s.settings.slots slot).feedLimit ∧
    (∀ x ∈ (tget s.settings.slots slot).tap1, -32768 ≤ x.weight ∧ x.weight ≤ 32767) ∧
    ∀ x ∈ (tget s.settings.slots slot).tap2, -32768 ≤ x.weight ∧ x.weight ≤ 32767) ∧
  ∀ k : Station, Within 0 65535 (stationSettings k s).scale ∧
    Within 1 32767 (stationSettings k s).threshold ∧ Within 0 3 (stationSettings k s).coefficient

/-- The global settings as numbers, in the order of the settings table (R167). -/
def globalNumbers (g : GlobalSettings) : List Nat :=
  [g.blanking, g.theta, g.settle, g.divergenceHold, g.stationLock, g.stationUnlock, g.shockHold,
    g.presenceLock, g.presenceUnlock, g.divider]

/-- The range of each global setting, in the same order (R32, R86, R95, R135, R158). -/
def globalRanges : List (Nat × Nat) :=
  [(0, 15), (0, 32767), (0, 63), (1, 4095), (1, 31), (1, 31), (1, 1023), (1, 31), (1, 15), (2, 16)]

/-- The numeric settings of a target's common part, in the order of the settings table. -/
def targetNumbers (g : TargetSettings) : List Nat := [g.mu, g.deadband, g.gmax, g.interval]

/-- The range of each (R95). -/
def targetRanges : List (Nat × Nat) := [(0, 255), (0, 4095), (1, 32767), (1, 16)]

/-- The numeric settings of a station's part, in the order of the settings table. -/
def stationNumbers (g : StationSettings) : List Nat := [g.scale, g.threshold, g.coefficient]

/-- The range of each (R135). -/
def stationRanges : List (Nat × Nat) := [(0, 65535), (1, 32767), (0, 3)]

/-! ### A safe state -/

/-- All the laws together. -/
def Safe (s : State) : Prop :=
  SourceTableLaw s ∧ PresenceLaw s ∧ ProfileCacheLaw s ∧ ReferenceCountLaw s ∧ CouplingStoreLaw s ∧
    RingLaw s ∧ DivergenceLaw s ∧ UpdateQueueLaw s ∧ FilterLaw s ∧ FrameAccountLaw s ∧
    SuppressionLaw s ∧ WindowLaw s ∧ SettingsLaw s

/-! ### What the statements about commands say of the state after -/

/-- The state after a management command that completes at once with this response: its transaction
has ended and the response is held (R165). -/
def replied (r : Response) (s : State) : State :=
  { s with port := { s.port with transaction := none, cutOff := false, held := r } }

/-- The state after a management command that waits on the arbiter has been taken (R165, R166). -/
def begun (e : Executing) (s : State) : State :=
  { s with port := { s.port with transaction := none, cutOff := false, executing := some e } }

/-- The state after an access of the Management Port: the other requesters have presented theirs
(R64; the model's marks of it are assumption 16). -/
def accessed (s : State) : State :=
  { s with
    prediction := { s.prediction with gap := false }
    adaptation := { s.adaptation with gap := false } }

/-- The state after a waiting command has completed, at its last access, with this response (R165,
R166). -/
def completed (r : Response) (s : State) : State :=
  accessed { s with port := { s.port with executing := none, held := r } }

/-- A live record of a slot with a tag (R6). -/
abbrev Names (r : RecordNo) (slot : Slot) (tag : Tag) (s : State) : Prop :=
  isLive (getRecord r s) ∧ (getRecord r s).slot = slot ∧ (getRecord r s).tag = tag

/-- From s to t, record r has been retired and nothing else has changed (R5): it is FREE, its slot's
live count has fallen by one, and so has the reference count of a FILLED slot of its profile. -/
def RetiredOnly (r : RecordNo) (s t : State) : Prop :=
  getRecord r t = freeRecord ∧ (∀ q : RecordNo, q ≠ r → getRecord q t = getRecord q s) ∧
  (∀ slot : Slot, getLive slot t =
    if slot = (getRecord r s).slot then getLive slot s - 1 else getLive slot s) ∧
  (∀ c : CacheNo, tget t.cache.slots c =
    (tget s.cache.slots c).mapCount (getRecord r s).profile (· - 1)) ∧
  t = { s with table := t.table, cache := { s.cache with slots := t.cache.slots } }

/-- From s to t, record r has become v and nothing else has changed. -/
def RecordOnly (r : RecordNo) (v : SourceRecord) (s t : State) : Prop :=
  getRecord r t = v ∧ (∀ q : RecordNo, q ≠ r → getRecord q t = getRecord q s) ∧
  t = { s with table := { s.table with records := t.table.records } }

/-- What an entry into ABSENT does beside the presence itself (R22, R93, R159): no record of the
slot is live, the other records stand, the ring is empty, the slot has no evaluation in flight,
PRESENCE-CHANGE is latched, and settings, store, adaptation, stations and suppression stand. -/
def EnteredAbsent (slot : Slot) (s t : State) : Prop :=
  (∀ r : RecordNo, isLive (getRecord r t) → (getRecord r t).slot ≠ slot) ∧
  (∀ r : RecordNo, (getRecord r s).slot ≠ slot → getRecord r t = getRecord r s) ∧
  getRing (slotTarget slot) t = [] ∧ findEvaluation (slotTarget slot) t = none ∧
  t.port.latched = s.port.latched ||| Flag.presenceChange.bit ∧
  t.now = s.now ∧ t.settings = s.settings ∧ t.store = s.store ∧ t.adaptation = s.adaptation ∧
  t.stations = s.stations ∧ t.suppression = s.suppression ∧ t.cache.queue = s.cache.queue ∧
  t.cache.flight = s.cache.flight ∧ t.cache.lru = s.cache.lru ∧
  t.cache.unusable = s.cache.unusable ∧ t.cache.port = s.cache.port ∧
  ∀ u : Target, u ≠ slotTarget slot → getRing u t = getRing u s

/-- What an entry into PRESENT does beside the presence itself (R101, R159): the slot's settle count
is S, PRESENCE-CHANGE is latched, and no other block changes. -/
def EnteredPresent (slot : Slot) (s t : State) : Prop :=
  getAdapt (slotTarget slot) t =
    { getAdapt (slotTarget slot) s with settle := s.settings.global.settle } ∧
  (∀ u : Target, u ≠ slotTarget slot → getAdapt u t = getAdapt u s) ∧
  t.adaptation.steps = s.adaptation.steps ∧
  t.port.latched = s.port.latched ||| Flag.presenceChange.bit ∧
  t.now = s.now ∧ t.settings = s.settings ∧ t.store = s.store ∧ t.table = s.table ∧
  t.cache = s.cache ∧ t.stations = s.stations ∧ t.suppression = s.suppression

end Sys2Proof.Machine
end

