-- ==== Sys2Proof/Certificates/Slice0/Obligations.lean ====
section
/-! DEFINITION. The statements about the DT-96 model. Each is listed in OBLIGATIONS.json with the
sentences of spec/ it rests on. -/

open Sys2Proof Sys2Proof.Machine

/-! ### The queue, reset and the laws -/

/-- The front command of the queue is the one a step runs, with the queue's rest; on an empty queue
the part idles (the model's choice, assumption 1). -/
def Obligations.StepRunsTheFrontCommand : Prop :=
  (∀ (c : Instr) (q : List Instr) (s : State), s.pending = c :: q →
    step s = exec c (s.withQueue q)) ∧
  ∀ s : State, s.pending = [] → step s = .next s

/-- Every command answers a next state, from every state and out of its turn too, and what it does
neither reads nor changes the queue of commands that wait. The spec gives the steps alone: the
queue, and that a command whose condition does not hold answers a next state, are the model's choice
(assumption 1). -/
def Obligations.EveryCommandCompletesAndLeavesTheQueue : Prop :=
  ∀ (c : Instr) (s : State), ∃ t : State, exec c s = .next t ∧ t.pending = s.pending ∧
    ∀ q : List Instr, exec c (s.withQueue q) = .next (t.withQueue q)

/-- The state after power-up obeys every law. -/
def Obligations.ResetObeysEveryLaw : Prop :=  Safe State.reset

/-- Every step keeps the law of the Source Table (R6). -/
def Obligations.StepsKeepTheSourceTableLaw : Prop :=
  ∀ s t : State, SourceTableLaw s → step s = .next t → SourceTableLaw t

/-- Every step keeps ABSENT slots without live records (R22); and every step keeps the windows of a
frame in order and none of them before its place in the frame, and the evaluation that a window
waits for in flight (R152, R71). -/
def Obligations.StepsKeepPresenceAndWindowLaws : Prop :=
  (∀ s t : State, PresenceLaw s → step s = .next t → PresenceLaw t) ∧
  (∀ s t : State, WindowLaw s → step s = .next t → WindowLaw t)

/-- Every step keeps the laws of cache slots, LRU order, fetch queue and unusable set (R33, R34,
R36, R37, R38), and every step keeps each FILLED slot's reference count equal to the number of
live records naming its profile (R35). -/
def Obligations.StepsKeepTheProfileCacheLaws : Prop :=
  (∀ s t : State, ProfileCacheLaw s → step s = .next t → ProfileCacheLaw t) ∧
  (∀ s t : State, ReferenceCountLaw s → step s = .next t → ReferenceCountLaw t)

/-- Every step keeps the law of both banks (R53, R54), and the judgement of a writing command good
until its grant (3.2). -/
def Obligations.StepsKeepTheCouplingStoreLaw : Prop :=
  ∀ s t : State, CouplingStoreLaw s → step s = .next t → CouplingStoreLaw t

/-- Every step keeps at most three records in a ring and sixteen contributors in a record, and no
station record SUPPRESSED or PARKED (R81, R88, R91); and at most 256 update requests in the
queue, none of a frozen target (R94, R111). What the law says of the moment whose steps are being
taken is the model's own (assumption 12). -/
def Obligations.StepsKeepTheRingAndUpdateQueueLaws : Prop :=
  (∀ s t : State, RingLaw s → step s = .next t → RingLaw t) ∧
  (∀ s t : State, UpdateQueueLaw s → step s = .next t → UpdateQueueLaw t)

/-- Every step keeps the divergence law, and from a state that obeys it no command but a cold reset
lowers a divergence count (R111). -/
def Obligations.StepsKeepTheDivergenceLaw : Prop :=
  (∀ s t : State, DivergenceLaw s → step s = .next t → DivergenceLaw t) ∧
  ∀ (c : Instr) (s t : State) (u : Target), DivergenceLaw s →
    exec c s = .next t →
    c ≠ .resetLine → c ≠ .powerUp → (∀ p : Payload Unit, c ≠ .restartCold p) →
    (getAdapt u s).divergence ≤ (getAdapt u t).divergence

/-- Every step keeps each station's filter outputs within ± 32767 (R127), and its accounts those
of the present frame and the one before, with their bounds (R121). -/
def Obligations.StepsKeepTheStationLaws : Prop :=
  (∀ s t : State, FilterLaw s → step s = .next t → FilterLaw t) ∧
  (∀ s t : State, FrameAccountLaw s → step s = .next t → FrameAccountLaw t)

/-- Every step keeps a slot's hold above 0 exactly in HELD (R139). -/
def Obligations.StepsKeepTheSuppressionLaw : Prop :=
  ∀ s t : State, SuppressionLaw s → step s = .next t → SuppressionLaw t

/-- Every step keeps every numeric setting, the weights of the ambient taps among them, in its range
(R86, R167), and no command but SETTING-WRITE and a cold
reset changes a setting (R167). -/
def Obligations.StepsKeepSettingsInRange : Prop :=
  (∀ s t : State, SettingsLaw s → step s = .next t → SettingsLaw t) ∧
  ∀ (c : Instr) (s t : State), exec c s = .next t →
    (∀ p, c ≠ .settingWrite p) → c ≠ .resetLine → c ≠ .powerUp → (∀ p, c ≠ .restartCold p) →
    t.settings = s.settings

/-- A flag that is latched stays latched under every command but READ-FLAGS and the resets
(R168). -/
def Obligations.LatchedFlagsStayLatched : Prop :=
  ∀ (c : Instr) (s t : State), exec c s = .next t →
    (∀ p, c ≠ .readFlags p) → (∀ p, c ≠ .restartWarm p) → c ≠ .warmLine →
    (∀ p, c ≠ .restartCold p) → c ≠ .resetLine → c ≠ .powerUp →
    t.port.latched &&& s.port.latched = s.port.latched

/-! ### Formats -/

/-- The command of a drive message is read back from its ten bytes, every field at every value
that its encoding admits (R173, R174); and a message is malformed exactly when its check, its
kind, its position or one of its encodings fails (R154, R174). The line carries its bytes most
significant bit first, and what follows the tenth is ignored (R153, 10.1). -/
def Obligations.UpstreamMessagesReadBackOrAreMalformed : Prop :=
  ((∀ (slot : Slot) (m : NoticeFields), m.wellFormed →
     (encodeUpstream (.notice slot m)).map (decodeUpstream slot) = some (.notice slot m)) ∧
   (∀ (slot : Slot) (tag : Tag) (start scale : Option Half),
     start ≠ none ∨ scale ≠ none →
     (encodeUpstream (.amend slot ⟨tag, start, scale⟩)).map (decodeUpstream slot) =
       some (.amend slot ⟨tag, start, scale⟩)) ∧
   (∀ (slot : Slot) (tag : Tag),
     (encodeUpstream (.withdraw slot tag)).map (decodeUpstream slot) = some (.withdraw slot tag)) ∧
   (∀ (slot : Slot) (tag : Tag) (stamp : Half),
     (encodeUpstream (.close slot tag stamp)).map (decodeUpstream slot) =
       some (.close slot tag stamp)) ∧
   ∀ (slot : Slot) (m : StatusFields),
     (encodeUpstream (.status slot m)).map (decodeUpstream slot) = some (.status slot m)) ∧
  (∀ (slot : Slot) (u : Upstream),
     decodeUpstream slot u = .malformedMessage slot ↔
       (byteSum u.bytes ≠ 0xA5 ∨
         ((u.b0 >>> 5) = 0 ∨ (u.b0 >>> 5) = 6 ∨ (u.b0 >>> 5) = 7) ∨
         ((u.b0 >>> 1) &&& 0x0F).toNat ≠ slot.val % 12 ∨
         ((u.b0 >>> 5) = 1 ∧ u.b1 &&& 0x10 ≠ 0 ∧
           ((u.b7 &&& 1).toNat * 256 + u.b8.toNat = 0 ∨
             256 < (u.b7 &&& 1).toNat * 256 + u.b8.toNat)) ∨
         ((u.b0 >>> 5) = 2 ∧ u.b1 &&& 0x18 = 0) ∨
         ((u.b0 >>> 5) = 5 ∧ (u.b1 >>> 6) = 3))) ∧
  ∀ (u : Upstream) (after : List Bool),
    upstreamOf (bytesOfBits (lineBits u.bytes ++ after)) = some u

/-- Sensor words: a channel word and a SWEEP-END are read back; a word whose stop bit reads 0, or
whose type bits are 00 or 11, is discarded, and a discarded word changes nothing (R175). On the line
a word is a start bit of 0, 24 data bits most significant first and a stop bit, and it is received
with its stop bit (R175); that the line reads 1 between words, and that the first 0 after a stop bit
is a start bit, is the model's choice (assumption 20). Pages: one
written with marker, length and check is good whatever bytes follow it, and a page is good only if
its marker, its length and its check pass (R29, R30). -/
def Obligations.SensorWordsAndPagesAreReadByTheirTests : Prop :=
  ((∀ (tag : BitVec 6) (value : Half),
     (encodeSensor (.channelWord tag value)).map (decodeSensor · true) =
       some (.channelWord tag value)) ∧
   (∀ stamp : Half,
     (encodeSensor (.sweepEnd stamp)).map (decodeSensor · true) = some (.sweepEnd stamp)) ∧
   (∀ (w : BitVec 24) (stop : Bool),
     decodeSensor w stop = .discardedWord ↔
       (stop = false ∨ w >>> 22 = 0 ∨ w >>> 22 = 3)) ∧
   (∀ s : State, Ready s → exec .discardedWord s = .next s) ∧
   ∀ (w : BitVec 24) (stop : Bool),
     ((sensorBits w stop).length = 26 ∧ (sensorBits w stop)[0]? = some false ∧
       (∀ i < 24, (sensorBits w stop)[1 + i]? = some (w.getLsbD (23 - i))) ∧
       (sensorBits w stop)[25]? = some stop) ∧
     (∀ (between : Nat) (after : List Bool),
       SensorReceiver.idle.words (List.replicate between true ++ sensorBits w stop ++ after) =
         decodeSensor w stop :: SensorReceiver.idle.words after) ∧
     ∀ n < 26, SensorReceiver.idle.words ((sensorBits w stop).take n) = []) ∧
  (∀ (p : List Half) (rest : List Byte), 1 ≤ p.length → p.length ≤ 256 →
    decodePage ((encodePage p).flatMap halfBytes ++ rest) = .fetchCompleteGood p) ∧
  (∀ (marker len check : Half) (rest p : List Half),
    goodPage (marker :: len :: check :: rest) = some p ↔
      (marker = 0x6D31 ∧ 1 ≤ len.toNat ∧ len.toNat ≤ 256 ∧ len.toNat ≤ rest.length ∧
        p = rest.take len.toNat ∧
        (len.toNat + (p.map BitVec.toNat).sum) % 65536 = check.toNat))

/-- The command of a management frame is read back from the bytes clocked in, and from their bits,
each byte most significant bit first, whatever further bits the transaction clocks; one of fewer
than two bytes carries no command (R164, R176). That a byte not clocked in whole does not count is
the model's choice (assumption 19). -/
def Obligations.ManagementFramesReadBack : Prop :=
  (∀ (i : Instr) (bytes extra : List Byte), i.wellFormed → encodeFrame i = some bytes →
    decodeFrame (bytes ++ extra) = some i) ∧
  (∀ (i : Instr) (bytes : List Byte) (extra : List Bool), i.wellFormed →
    encodeFrame i = some bytes → decodeFrame (bytesOfBits (lineBits bytes ++ extra)) = some i) ∧
  (∀ bits : List Bool, bits.length < 16 → decodeFrame (bytesOfBits bits) = none) ∧
  ∀ b : Byte, ∃ b7 b6 b5 b4 b3 b2 b1 b0 : Bool, lineBits [b] = [b7, b6, b5, b4, b3, b2, b1, b0] ∧
    b.toNat = 128 * b7.toNat + 64 * b6.toNat + 32 * b5.toNat + 16 * b4.toNat + 8 * b3.toNat +
      4 * b2.toNat + 2 * b1.toNat + b0.toNat

/-- What the part sends. The bytes of every BEACON and of every FEED sum to A5h modulo 256; a BEACON
has 5 of them and a FEED 20, each field stands at its place (R173, R174), and the line carries each
byte most significant bit first (10.1). A response has its status, its length in two bytes and its
payload, and a transaction clocks out its bytes and 00h after them, each most significant bit first
from the falling edge of select (R164, R176); the payload bytes of responses whose fields R176 lays
out, field by field. Of IDENTIFY's payload R176 gives no size for the part code: that it is sent
most significant byte first in a field of unstated size is the model's choice (assumption 3). -/
def Obligations.SentMessagesCarryTheirFieldsAndCheck : Prop :=
  (∀ b : Beacon, b.bytes.length = 5 ∧ (b.bytes.map BitVec.toNat).sum % 256 = 0xA5 ∧
    ∃ check : Byte, b.bytes = [0x3C, b.frameNumber.extractLsb' 8 8, b.frameNumber.extractLsb' 0 8,
      if b.bank = .a then 0 else 1, check] ∧
      ∀ i < 5, ∀ j < 8, b.line[8 * i + j]? = (b.bytes[i]?).map (·.getLsbD (7 - j))) ∧
  (∀ f : Feed, f.bytes.length = 20 ∧ (f.bytes.map BitVec.toNat).sum % 256 = 0xA5 ∧
    (∀ i < 20, ∀ j < 8, f.line[8 * i + j]? = (f.bytes[i]?).map (·.getLsbD (7 - j))) ∧
    (∃ r : Byte, f.bytes[0]? = some r ∧
      [Reply.none, .taken, .takenLate, .notPresent, .tagInUse, .slotLimit, .profileBad, .tooFar,
        .stale, .full, .busy, .tooLate, .unknownTag, .alreadyEnded, .notRunning][r.toNat]? =
        some f.reply) ∧
    (f.tag < 8 → f.bytes[1]?.map BitVec.toNat = some (32 * f.tag +
      (if f.block.absent then 16 else 0) + (if f.block.parked then 8 else 0) +
      (if f.block.suppressed then 4 else 0) + (if f.block.clipped then 2 else 0) +
      (if f.block.partialFlag then 1 else 0))) ∧
    (f.frameTag < 8 → f.bytes[2]?.map BitVec.toNat = some f.frameTag) ∧
    ∀ i : Fin 8, -32768 ≤ tget f.block.values i → tget f.block.values i ≤ 32767 →
      ∃ hi lo : Byte, f.bytes[3 + 2 * i.val]? = some hi ∧ f.bytes[4 + 2 * i.val]? = some lo ∧
        (hi ++ lo : BitVec 16).toInt = tget f.block.values i) ∧
  (∀ r : Response, ∃ status hi lo : Byte, r.bytes = [status, hi, lo] ++ r.body.bytes ∧
    (r.body.bytes.length < 65536 → 256 * hi.toNat + lo.toNat = r.body.bytes.length) ∧
    [Status.ok, .busy, .badArgument, .swapPending, .notPending, .poolFull, .badList, .notLent,
      .alreadyLent, .inUse, .profileBad, .noSuchRecord, .unknownCommand][status.toNat]? =
      some r.status) ∧
  (∀ (t : Transaction) (i : Nat),
    (∀ b : Byte, t.out.bytes[i]? = some b → t.clockOut i = b) ∧
    (t.out.bytes.length ≤ i → t.clockOut i = 0) ∧
    ∀ j < 8, t.bitOut (8 * i + j) = (t.clockOut i).getLsbD (7 - j)) ∧
  let two := fun n : Nat => ([BitVec.ofNat 8 (n / 256), BitVec.ofNat 8 n] : List Byte)
  let time := fun t : Time => ([t.extractLsb' 24 8, t.extractLsb' 16 8, t.extractLsb' 8 8,
    t.extractLsb' 0 8] : List Byte)
  let bank := fun name : BankName => (if name = .a then [0] else [1] : List Byte)
  Body.none.bytes = [] ∧
  (∀ bits : BitVec 12, (Body.flags bits).bytes =
    [(bits.extractLsb' 8 4).setWidth 8, bits.extractLsb' 0 8]) ∧
  (∀ v : SettingValue, (Body.setting v).bytes =
    [v.choice, v.station, v.value.extractLsb' 8 8, v.value.extractLsb' 0 8]) ∧
  (∀ (name : BankName) (length clipped pool : Nat),
    (Body.listWritten name length clipped pool).bytes =
    bank name ++ two length ++ two clipped ++ two pool) ∧
  (∀ (name : BankName) (pool : Nat), (Body.captured name pool).bytes = bank name ++ two pool) ∧
  (∀ lowered awaiting : Nat, (Body.shortened lowered awaiting).bytes =
    two lowered ++ two awaiting) ∧
  (Body.port .owned).bytes = [0] ∧ (Body.port .lendPending).bytes = [1] ∧
  (Body.port .lent).bytes = [2] ∧
  (∀ (part : Nat) (l : List Nat) (t : Time) (cause : ResetCause),
    ∃ zeros : List Byte, (∀ z ∈ zeros, z = 0) ∧ (Body.identity part l t cause).bytes =
      zeros ++ [BitVec.ofNat 8 part] ++ l.flatMap two ++ time t ++ [(match cause with
        | .powerUp => 0
        | .resetLine => 1
        | .restartCold => 2
        | .restartWarm => 3
        | .warmLine => 4 : Byte)])

/-- Words of the spec's own layouts and examples read as the commands they stand for. -/
def Obligations.SampleWordsReadAsTheirCommands : Prop :=
  (upstreamOf [0xA2, 0x02, 0, 0, 0x25, 0, 0, 0, 0, 0xDC]).map (decodeUpstream 25) =
      some (.status 25 ⟨.active, false, 37, 2⟩) ∧
    decodeSensor 0b010001100000010010110000 true = .channelWord 6 1200 ∧
    decodeSensor 0b100000000100000000000001 true = .sweepEnd 0x4001 ∧
    decodePage [0x6D, 0x31, 0, 4, 0x3C, 0x1B, 0x03, 0xE8, 0xF8, 0x30, 0x40, 0, 0xFF, 0xFF] =
      .fetchCompleteGood [1000, BitVec.ofInt 16 (-2000), 16384, BitVec.ofInt 16 (-1)] ∧
    decodeFrame [0x19, 1, 0xFF] = some (.holdShorten (.fields 0xFF)) ∧
    decodeFrame [0x12, 0] = some (.unknownCommand 0x12) ∧
    decodeFrame [0x0C, 1] = some (.targetRead .wrongLength)

/-! ### Chassis time and the frame boundary -/

/-- A stamp is read as the one chassis time with its low 16 bits from now − 32768 to now + 32767
(R7). -/
def Obligations.StampsReadAsTheOneNearTime : Prop :=
  ∀ (now : Time) (stamp : Half),
    ((readStamp now stamp).toNat % 65536 = stamp.toNat ∧
      -32768 ≤ (readStamp now stamp - now).toInt ∧ (readStamp now stamp - now).toInt ≤ 32767) ∧
    ∀ t : Time, t.toNat % 65536 = stamp.toNat → -32768 ≤ (t - now).toInt →
      (t - now).toInt ≤ 32767 → t = readStamp now stamp

/-- CHASSIS-TIME-ADVANCE adds one to chassis time modulo 2^32, and reaches a boundary exactly where
the sum is a multiple of 8 (R151); with nothing due, no evaluation in flight, and every phase and
window ended that ends within the sample period (R152), it does nothing else, but that the model
marks every count's fall as due at a boundary (assumption 5). -/
def Obligations.ChassisTimeAdvancesByOne : Prop :=
  (∀ s : State, Running s → ∃ t : State, exec .chassisTimeAdvance s = .next t ∧
    t.now = s.now + 1 ∧ (t.boundary = .reached ↔ (s.now + 1).toNat % 8 = 0) ∧
    t.boundary ≠ .taken) ∧
  ∀ s : State, Running s → NothingDue s → s.prediction.evaluations = [] →
    (∀ x : Slot, 600 + 400 * (x.val % 12) ≤ 625 * (s.now.toNat % 8 + 1) →
      (getLink x s).window = .over) →
    (∀ x : Slot, 360 + 400 * (x.val % 12) ≤ 625 * (s.now.toNat % 8 + 1) →
      (getLink x s).window.isUpstream = false) →
    exec .chassisTimeAdvance s = .next
      (if (s.now + 1).toNat % 8 = 0 then markDue { s with now := s.now + 1, boundary := .reached }
        else { s with now := s.now + 1 })

/-- FRAME-BOUNDARY where a boundary has been reached, with any schedule: a pending swap is taken
(R61), every target then settles anew (R101) with its postscaler count at 0, as far as no station's
cycle after the swap counts an arrival (R101, R103), the BEACON names the frame and the bank (R152),
every window of the frame is to come, and chassis time, records, cache, settings, presence and drive
states stand. A settle count that no swap sets, a divergence hold that no gain update of the
boundary sets, a shock hold and a suppression hold fall by one where they stand above 1 (R102, R112,
R133, R144). That the falls are marked as due, and that the fall from 1 is a step of its own, are
the model's (assumption 5); so are the schedule and what one that names a station twice is taken for
(assumption 7), and that without a boundary reached FRAME-BOUNDARY has no effect (assumption 1). -/
def Obligations.FrameBoundarySwapsAndOpensTheFrame : Prop :=
  (∀ (acts : List BoundaryAct) (s : State), Ready s → s.boundary = .reached →
    let lowered := fun (due : Bool) (n : Nat) => if due = true ∧ 1 < n then n - 1 else n
    ∃ t : State, exec (.frameBoundary acts) s = .next t ∧ t.boundary = .taken ∧
      t.store.active = (if s.store.swapPending then s.store.active.other else s.store.active) ∧
      t.store.swapPending = false ∧
      (s.store.swapPending = true →
        t.port.latched &&& Flag.swapDone.bit = Flag.swapDone.bit ∧
        (∀ u : Target, (getAdapt u t).settle = s.settings.global.settle) ∧
        (∀ slot : Slot, (getAdapt (slotTarget slot) t).postscaler = 0) ∧
        ∀ k : Station, (cyclesOf acts).Nodup → k ∈ cyclesOf acts →
          (getAdapt (stationTarget k) t).postscaler = 0) ∧
      (s.store.swapPending = false → BoundaryAct.gainUpdate ∉ acts → ∀ slot : Slot,
        (getAdapt (slotTarget slot) t).postscaler = (getAdapt (slotTarget slot) s).postscaler) ∧
      (s.store.swapPending = false → ∀ u : Target, (getAdapt u t).settle =
        lowered (getAdapt u s).settleDue (getAdapt u s).settle) ∧
      (BoundaryAct.gainUpdate ∉ acts → ∀ u : Target, (getAdapt u t).hold =
        lowered (getAdapt u s).holdDue (getAdapt u s).hold) ∧
      (∀ k : Station, (getStation k t).shockHold =
        lowered (getStation k s).shockDue (getStation k s).shockHold) ∧
      (∀ slot : Slot, getSuppression slot t = { getSuppression slot s with
        hold := lowered (getSuppression slot s).fallDue (getSuppression slot s).hold
        fallDue := (getSuppression slot s).fallDue && decide ((getSuppression slot s).hold = 1) }) ∧
      t.links.beacon = some ⟨wireFrame (frameOf s.now), t.store.active⟩ ∧
      (∀ slot : Slot, getLink slot t = { getLink slot s with window := .upstream none }) ∧
      t.now = s.now ∧ t.table = s.table ∧ t.cache = s.cache ∧ t.settings = s.settings ∧
      t.coldReset = s.coldReset ∧ t.port = { s.port with latched := t.port.latched }) ∧
  ∀ (acts : List BoundaryAct) (s : State), Ready s → s.boundary ≠ .reached →
    exec (.frameBoundary acts) s = .next s

/-- At the boundary that begins frame g each station closes its account of frame g − 2 and begins
its evaluation for frame g + 1 (R131, R72): a residual count of 4 or more hands the mean over as the
last residual (R98), and the accounts move on. Where the account so marks them, missing periods are
counted for lock as invalid samples (R128, R131): they raise a LOCKED station's bad run and unlock
it at the unlock count, and zero an UNLOCKED station's good run. The evaluation begins with its
snapshot and its reads (R70, R73): none of them has been made, and its bank is fixed only where
there is none to make, but that the boundary's schedule may grant reads of a station whose cycle it
names (the model's choice, assumption 7). -/
def Obligations.StationsCloseTheirFrameAtTheBoundary : Prop :=
  ∀ (acts : List BoundaryAct) (s : State) (k : Station), Ready s → s.boundary = .reached →
    let st := getStation k s
    let unlock := s.settings.global.stationUnlock
    ∃ t : State, exec (.frameBoundary acts) s = .next t ∧
      (getAdapt (stationTarget k) t).lastResidual =
        (if 4 ≤ st.older.count then (st.older.sum).tdiv st.older.count
        else (getAdapt (stationTarget k) s).lastResidual) ∧
      (getStation k t).newer = freshAccount (frameOf s.now) true ∧
      (getStation k t).older.frame = st.newer.frame ∧
      (getStation k t).older.taken = st.newer.taken ∧
      (getStation k t).lastM = st.lastM ∧ (getStation k t).force = st.force ∧
      (st.older.missingCounted = false ∨ st.older.missing = 0 →
        (getStation k t).detected = st.detected ∧ (getStation k t).goodRun = st.goodRun ∧
        (getStation k t).badRun = st.badRun ∧ (getStation k t).older = st.newer ∧
        (getStation k t).y1 = st.y1 ∧ (getStation k t).y2 = st.y2) ∧
      (st.older.missingCounted = true → st.detected = .locked → 0 < st.older.missing →
        st.badRun + st.older.missing < unlock →
        (getStation k t).detected = .locked ∧
        (getStation k t).badRun = st.badRun + st.older.missing ∧
        (getStation k t).older = st.newer ∧
        (getStation k t).y1 = st.y1 ∧ (getStation k t).y2 = st.y2) ∧
      (st.older.missingCounted = true → st.detected = .unlocked → 0 < st.older.missing →
        (getStation k t).detected = .unlocked ∧ (getStation k t).goodRun = 0 ∧
        (getStation k t).older = st.newer) ∧
      (st.older.missingCounted = true → st.detected = .locked → 0 < st.older.missing →
        unlock ≤ st.badRun + st.older.missing →
        (getStation k t).detected = .unlocked ∧ (getStation k t).goodRun = 0 ∧
        (getStation k t).badRun = 0 ∧
        (st.force = none → (getStation k t).y1 = 0 ∧ (getStation k t).y2 = 0 ∧
          (getStation k t).older = { st.newer with sum := 0, count := 0 } ∧
          t.port.latched &&& Flag.lockChange.bit = Flag.lockChange.bit)) ∧
      ∃ e ∈ t.prediction.evaluations, findEvaluation (stationTarget k) t = some e ∧
        e.target = stationTarget k ∧ e.frame = frameOf s.now + 1 ∧
        SnapshotTaken (stationTarget k) t e.snap ∧
        ReadsOf t (e.done.map (·.source) ++ e.waiting) ∧
        (k ∉ cyclesOf acts → EvaluationBegun (stationTarget k) (frameOf s.now + 1) t e)

/-- The mean of a closed frame is a residual arrival where the station is LOCKED, its shock hold is
not running and its ring holds the record of that frame (R97); it is ignored under R99's conditions,
and otherwise raises the postscaler count or, at the interval N, returns it to 0 and takes a step
(R103 to R105). Said of the plain boundary with no swap pending. Steps of one moment join the queue
in ascending order of target, each as far as 256 update requests allow, whatever the order in which
the model takes them (R94); which steps are of one moment is the model's (assumption 12). A grant
between two of them does not change that order among the steps not begun (R94). That an arrival
after the end of its target's divergence hold at the same boundary is counted where S is 0, as R101
says of S = 0 and against R100, is the model's choice (assumption 23). -/
def Obligations.StationMeansArriveAtTheCloseInOrderOfTarget : Prop :=
  (∀ (s : State) (k : Station), Ready s → s.boundary = .reached → s.store.swapPending = false →
     4 ≤ (getStation k s).older.count →
     let u := stationTarget k
     let a := getAdapt u s
     let g := targetSettings u s
     let e := ((getStation k s).older.sum).tdiv (getStation k s).older.count
     let found := (getRing u s).find? fun x => decide (x.frame = (getStation k s).older.frame)
     ∃ t : State, exec (.frameBoundary []) s = .next t ∧
       ((getStation k s).effective = .unlocked ∨ 0 < (getStation k s).shockHold ∨ found = none →
         (getAdapt u t).postscaler = a.postscaler) ∧
       ∀ r, (getStation k s).effective = .locked → (getStation k s).shockHold = 0 →
         found = some r →
         let ignored := a.frozen = true ∨ g.enabled = false ∨ 0 < a.hold ∨ 0 < a.settle ∨
           r.suppressed = true ∨ r.parked = true ∨ r.bank ≠ s.store.active ∨
           r.partialFlag = true ∨ r.overflow = true
         let updates : List GainUpdate :=
           if e.natAbs < g.deadband ∨ e = 0 then []
           else (r.contributors.filter fun c => decide (c.blanked = false ∧ c.x ≠ 0 ∧
               s.settings.global.theta ≤ c.x.natAbs)).map
             fun c => ⟨c.source, decide (0 < e ↔ 0 < c.x), g.mu, g.gmax⟩
         let only := (∀ j : Station, j ≠ k → (getStation j s).older.count < 4) ∧
           ∀ m ∈ s.adaptation.openMoment, m.moment ≠ ⟨s.now, 0⟩
         (ignored → (getAdapt u t).postscaler = a.postscaler ∧
           (only → t.adaptation.steps = s.adaptation.steps)) ∧
         (¬ ignored → a.postscaler + 1 < g.interval →
           (getAdapt u t).postscaler = a.postscaler + 1 ∧
           (only → t.adaptation.steps = s.adaptation.steps)) ∧
         (¬ ignored → g.interval ≤ a.postscaler + 1 → (getAdapt u t).postscaler = 0 ∧
           (only → t.adaptation.steps =
             if updates = [] ∨ 256 < queuedUpdates s.adaptation.steps + updates.length then
               s.adaptation.steps
             else s.adaptation.steps ++ [⟨⟨s.now, 0⟩, u, r.bank, updates, false⟩]))) ∧
  (∀ (a b : Step) (s : State), a.moment = b.moment → a.target ≠ b.target →
     queueStep a (queueStep b s) = queueStep b (queueStep a s)) ∧
  ∀ (a b : Step) (s : State), a.moment = b.moment → a.target < b.target → a.updates ≠ [] →
    b.updates ≠ [] → (∀ m ∈ s.adaptation.openMoment, m.moment ≠ a.moment) →
    let join := fun (l : List Step) (st : Step) =>
      if queuedUpdates l + st.updates.length ≤ 256 then l ++ [st] else l
    (queueStep a (queueStep b s)).adaptation.steps = join (join s.adaptation.steps a) b ∧
    ∀ (st : Step) (rest : List Step) (u v : GainUpdate) (more : List GainUpdate), Ready s →
      (∀ e ∈ s.prediction.evaluations, e.waiting = []) → s.adaptation.steps = st :: rest →
      (∀ x ∈ rest, x.moment ≠ a.moment) → st.updates = u :: v :: more →
      queuedUpdates s.adaptation.steps + a.updates.length + b.updates.length ≤ 256 →
      ∃ (t : State) (mark : Bool), exec .gainUpdate (queueStep b s) = .next t ∧
        (queueStep a t).adaptation.steps =
          { st with updates := v :: more, clipped := mark } :: (rest ++ [a, b])

/-- The falls of counts from 1 at a boundary: a settle count ends (R102); a divergence hold ends and
sets the settle count to S, not lowered at this boundary (R112); a shock hold ends and zeroes the
filter (R133); a suppression hold expires by its mode (R144), also that of a trigger taken before
this boundary with H = 1, where R144 says that no expiry takes place. So too a shock hold that a
sample taken before this boundary set with H = 1 ends and zeroes the filter, where R133 says that it
does not end (both the model's choice, assumption 24). A count that stands at another value when its
fall is taken only falls by one, and a count of 0 stays 0. That these falls are steps of their own,
by marks that say which are due, is the model's choice (assumption 5); so is that a fall which is
not due has no effect (assumption 1). -/
def Obligations.CountsEndAtTheirFallFromOne : Prop :=
  ∀ s : State, Ready s →
    (∀ u : Target, s.boundary ≠ .quiet → (getAdapt u s).settleDue = true →
      (getAdapt u s).settle = 1 →
      exec (.settleEnd u) s =
        .next (modAdapt u (fun a => { a with settle := 0, settleDue := false }) s)) ∧
    (∀ u : Target, s.boundary ≠ .quiet → (getAdapt u s).holdDue = true → (getAdapt u s).hold = 1 →
      exec (.divergenceHoldEnd u) s =
        .next (modAdapt u (fun a => { a with
          hold := 0, holdDue := false
          settle := s.settings.global.settle, settleDue := false }) s)) ∧
    (∀ k : Station, s.boundary ≠ .quiet → (getStation k s).shockDue = true →
      (getStation k s).shockHold = 1 →
      exec (.shockHoldEnd k) s =
        .next (modStation k
          (fun st => { st with shockHold := 0, shockDue := false, y1 := 0, y2 := 0 }) s)) ∧
    (∀ slot : Slot, s.boundary ≠ .quiet → (getSuppression slot s).fallDue = true →
      (getSuppression slot s).hold = 1 →
      exec (.holdExpiry slot) s = .next (modSuppression slot (fun r =>
        { state :=
            if (tget s.settings.slots slot).mode = .latched ∧ r.clearRequested = false then
              .awaitingClear
            else .clear
          hold := 0, clearRequested := false, fallDue := false }) s)) ∧
    (∀ u : Target, s.boundary ≠ .quiet → (getAdapt u s).settleDue = true →
      (getAdapt u s).settle ≠ 1 →
      exec (.settleEnd u) s = .next (modAdapt u
        (fun a => { a with settle := a.settle - 1, settleDue := false }) s)) ∧
    (∀ u : Target, s.boundary ≠ .quiet → (getAdapt u s).holdDue = true → (getAdapt u s).hold ≠ 1 →
      exec (.divergenceHoldEnd u) s = .next (modAdapt u
        (fun a => { a with hold := a.hold - 1, holdDue := false }) s)) ∧
    (∀ k : Station, s.boundary ≠ .quiet → (getStation k s).shockDue = true →
      (getStation k s).shockHold ≠ 1 →
      exec (.shockHoldEnd k) s = .next (modStation k
        (fun st => { st with shockHold := st.shockHold - 1, shockDue := false }) s)) ∧
    (∀ slot : Slot, s.boundary ≠ .quiet → (getSuppression slot s).fallDue = true →
      (getSuppression slot s).hold ≠ 1 →
      exec (.holdExpiry slot) s = .next (modSuppression slot
        (fun r => { r with hold := r.hold - 1, fallDue := false }) s)) ∧
    (∀ u : Target, s.boundary = .quiet ∨ (getAdapt u s).settleDue = false →
      exec (.settleEnd u) s = .next s) ∧
    (∀ u : Target, s.boundary = .quiet ∨ (getAdapt u s).holdDue = false →
      exec (.divergenceHoldEnd u) s = .next s) ∧
    (∀ k : Station, s.boundary = .quiet ∨ (getStation k s).shockDue = false →
      exec (.shockHoldEnd k) s = .next s) ∧
    ∀ slot : Slot, s.boundary = .quiet ∨ (getSuppression slot s).fallDue = false →
      exec (.holdExpiry slot) s = .next s

/-- Every command that is no time event of a record comes after the records' time events that fall
at its chassis time (R3), and after a fetch start whose conditions hold: it is at once in place, in
its own command or before the next one (R38, R40, R49). A NOTICE or a DROP of the profile whose slot
the start would choose may come before it (R39, R45). An event of a row link, and the end of a
sample period, come after everything that falls at their chassis time: they do what they do from the
state in which that has been taken, and then nothing is due (R3, R151). The windows of a frame run
in order: after an event of a slot's window every window before it is over, and when a sample period
ends so is every window that ends within it, hence all twelve at a boundary; and an upstream phase
or a slot's evaluation has ended where its end lies within it; and after a FEED the upstream phases
and evaluations of its window have ended on all eight rows (R152). Before the sample period in
which its place in the frame lies, an event of a window has no effect: window w begins at bit period
200 + 400w of the frame, a message of ten bytes can be whole 80 later, its upstream phase ends 160
after its beginning, its slot's evaluation ends and its FEED phase begins 80 after that and ends 160
later, and a sample period is 625 (R152, R153, R173). The order among the things due, what a queue
leaves out and then is taken, and that the queue says whether a start or the NOTICE or DROP it
yields to is first, are the model's (assumptions 4, 5 and 22). -/
def Obligations.CommandsComeAfterWhatIsDueAndInWindowOrder : Prop :=
  ∀ s : State, Running s →
    (NoEventDue (takeMoment s) ∧ startDue (takeMoment s) = false ∧ (takeMoment s).now = s.now ∧
      exec .fetchStart (takeRecordEvents s) = .next (takeMoment s)) ∧
    (NothingDue (takeDue s) ∧ (takeDue s).now = s.now) ∧
    (∀ c : Instr, (∀ r : RecordNo, c ≠ .recordStartReached r ∧ c ≠ .recordEndReached r ∧
        c ≠ .retirement r) → c ≠ .coldResetEnd →
      exec c s = exec c (takeRecordEvents s) ∧
      (yieldsTo c (takeRecordEvents s) = false → exec c s = exec c (takeMoment s))) ∧
    exec .chassisTimeAdvance s = exec .chassisTimeAdvance (takeDue s) ∧
    (∀ (c : Instr) (slot : Slot), c.windowOf = some slot →
      yieldsTo c (takeRecordEvents s) = false → exec c s = exec c (takeDue s)) ∧
    (WindowLaw s → ∀ (c : Instr) (slot : Slot) (t : State), c.windowOf = some slot →
      exec c s = .next t → (placeOf c).bit (position slot) < 625 * (s.now.toNat % 8 + 1) →
      EarlierWindowsOver slot t) ∧
    (WindowLaw s → ∀ (slot x : Slot) (t : State), exec (.feed slot) s = .next t →
      440 + 400 * (slot.val % 12) < 625 * (s.now.toNat % 8 + 1) → x.val % 12 = slot.val % 12 →
      (getLink x t).window.isUpstream = false ∧ (getLink x t).window.isEvaluating = false) ∧
    (WindowLaw s → ∀ t : State, exec .chassisTimeAdvance s = .next t →
      (∀ x : Slot, 600 + 400 * (x.val % 12) ≤ 625 * (s.now.toNat % 8 + 1) →
        (getLink x t).window = .over) ∧
      (∀ x : Slot, 440 + 400 * (x.val % 12) ≤ 625 * (s.now.toNat % 8 + 1) →
        (getLink x t).window.isEvaluating = false) ∧
      (∀ x : Slot, 360 + 400 * (x.val % 12) ≤ 625 * (s.now.toNat % 8 + 1) →
        (getLink x t).window.isUpstream = false) ∧
      (t.boundary = .reached → ∀ x : Slot, (getLink x t).window = .over)) ∧
    (∀ slot : Slot, 625 * (s.now.toNat % 8 + 1) ≤ 280 + 400 * (slot.val % 12) →
      ∀ c : Instr, c.windowOf = some slot → yieldsTo c (takeRecordEvents s) = false →
        exec c s = .next (takeDue s)) ∧
    (∀ slot : Slot, 625 * (s.now.toNat % 8 + 1) ≤ 360 + 400 * (slot.val % 12) →
      exec (.upstreamPhaseEnd slot) s = .next (takeDue s)) ∧
    ∀ slot : Slot, 625 * (s.now.toNat % 8 + 1) ≤ 440 + 400 * (slot.val % 12) →
      exec (.feed slot) s = .next (takeDue s)

/-! ### The Source Table -/

/-- The three time events of a record (R3): start, E, and E + 15 with retirement (R5); a record
whose condition has not come is left as it stands (the model's choice, assumption 1), and a FREE
record's fields are zeros (the model's choice, assumption 2: R5 gives the state alone). The end
point E (R2) is start + length modulo 2^32, or the cut where it is earlier. -/
def Obligations.RecordsFollowTheirTimeEvents : Prop :=
  (∀ (r : RecordNo) (s : State), Running s →
     ((getRecord r s).state = .pending → AtOrAfter s.now (getRecord r s).start →
       ∃ t, exec (.recordStartReached r) s = .next t ∧
         RecordOnly r { getRecord r s with state := .running } s t) ∧
     ((getRecord r s).state = .running → AtOrAfter s.now (getRecord r s).endPoint →
       ∃ t, exec (.recordEndReached r) s = .next t ∧
         RecordOnly r { getRecord r s with state := .tail } s t) ∧
     ((getRecord r s).state = .tail → AtOrAfter s.now ((getRecord r s).endPoint + 15) →
       ∃ t, exec (.retirement r) s = .next t ∧ RetiredOnly r s t) ∧
     ((getRecord r s).state ≠ .pending ∨ ¬ AtOrAfter s.now (getRecord r s).start →
       exec (.recordStartReached r) s = .next s) ∧
     ((getRecord r s).state ≠ .running ∨ ¬ AtOrAfter s.now (getRecord r s).endPoint →
       exec (.recordEndReached r) s = .next s) ∧
     ((getRecord r s).state ≠ .tail ∨ ¬ AtOrAfter s.now ((getRecord r s).endPoint + 15) →
       exec (.retirement r) s = .next s)) ∧
  (∀ v : SourceRecord,
     (v.cut = none → v.endPoint.toNat = (v.start.toNat + v.length) % 2 ^ 32) ∧
     ∀ c : Time, v.cut = some c →
       (0 < (v.start + BitVec.ofNat 32 v.length - c).toInt → v.endPoint = c) ∧
       ((v.start + BitVec.ofNat 32 v.length - c).toInt ≤ 0 →
         v.endPoint = v.start + BitVec.ofNat 32 v.length))

/-- The answers to a NOTICE that a check refuses, in the order of the checks (R9, R13): nothing
changes but the reply that the FEED will carry and NOTICE-REFUSED. The provisional length that STALE
judges is the limit if the NOTICE has one, or else the length of its profile if it is resident, or
else 256 (R9). The same where a fetch start is
due that yields to the NOTICE (R39; that the queue then says which is first is the model's choice,
assumption 22). -/
def Obligations.NoticesAreRefusedInTheOrderOfTheChecks : Prop :=
  ∀ (slot : Slot) (m : NoticeFields) (s : State) (length : Nat), ListensFor slot m s →
    m.wellFormed → ProvisionalLength m s length →
    (getLink slot s).effective = .present → getLive slot s ≤ 3 → s.cache.queue.length ≤ 16 →
    let start := readStamp s.now m.start
    let refused := fun reply => exec (.notice slot m) s =
      .next (setAnswer slot ⟨true, reply, m.tag.val⟩ (latch .noticeRefused s))
    if ∃ r : RecordNo, Names r slot m.tag s then refused .tagInUse
    else if getLive slot s = 3 then refused .slotLimit
    else if unusable m.profile s then refused .profileBad
    else if After start (s.now + 4096) then refused .tooFar
    else if AtOrBefore (start + BitVec.ofNat 32 length + 15) s.now then refused .stale
    else if ∀ r : RecordNo, isLive (getRecord r s) then refused .full
    else if residentSlot m.profile s = none ∧ inFlight m.profile s = false ∧
        m.profile ∉ s.cache.queue ∧ s.cache.queue.length = 16 then refused .busy
    else True

/-- A NOTICE that passes every check takes the lowest-numbered FREE record and fills it (R10, R11,
R4, R13): its state follows from its start, its E and now, its slot's live count rises, a resident
profile becomes most recently used and gains a reference, an absent one joins the fetch queue, and
the reply is by the lead test. Where the record's time is already past it is retired at once, and
only the cache order and the reply remain (R12). The same where a fetch start is due that would
choose the profile's count-zero slot, and the NOTICE is taken first (R39, assumption 22); that the
FREE record's fields are then zeros is the model's choice (assumption 2). -/
def Obligations.NoticesThatPassFillTheLowestFreeRecord : Prop :=
  ∀ (slot : Slot) (m : NoticeFields) (s : State) (r : RecordNo) (length : Nat),
    ListensFor slot m s → m.wellFormed → ProvisionalLength m s length →
    (getLink slot s).effective = .present → (∀ q : RecordNo, ¬ Names q slot m.tag s) →
    getLive slot s < 3 → unusable m.profile s = false →
    ¬ After (readStamp s.now m.start) (s.now + 4096) →
    ¬ AtOrBefore (readStamp s.now m.start + BitVec.ofNat 32 length + 15) s.now →
    (getRecord r s).state = .free → (∀ q : RecordNo, q < r → isLive (getRecord q s)) →
    (absentProfile m.profile s = true → s.cache.queue.length < 16) →
    let start := readStamp s.now m.start
    let late := decide (Before start (firstSample (frameOf s.now + 2)))
    let v : SourceRecord :=
      { state := .pending, slot := slot, tag := m.tag, profile := m.profile, scale := m.scale.toInt
        start := start
        length := (match residentSamples m.profile s with
          | none => length
          | some p => match m.limit with
            | none => p.length
            | some l => if l ≤ p.length then l else p.length)
        limit := m.limit, cut := none, late := late
        provisional := (residentSamples m.profile s).isNone }
    (NotResident m.profile s → residentSamples m.profile s = none ∧
      residentSlot m.profile s = none) ∧
    (∀ (c : CacheNo) (p : List Int), Resident m.profile c p s →
      residentSamples m.profile s = some p ∧ residentSlot m.profile s = some c) ∧
    ∃ t : State, exec (.notice slot m) s = .next t ∧
      (∀ q : RecordNo, q ≠ r → getRecord q t = getRecord q s) ∧
      (match v.stateAt s.now with
        | some st => getRecord r t = { v with state := st } ∧
          (∀ x : Slot, getLive x t = if x = slot then getLive x s + 1 else getLive x s) ∧
          ∀ c : CacheNo, tget t.cache.slots c = (tget s.cache.slots c).mapCount m.profile (· + 1)
        | none => getRecord r t = freeRecord ∧ (∀ x : Slot, getLive x t = getLive x s) ∧
          t.cache.slots = s.cache.slots) ∧
      t.cache.queue =
        (if absentProfile m.profile s then s.cache.queue ++ [m.profile] else s.cache.queue) ∧
      t.cache.lru = (match residentSlot m.profile s with
        | some c => s.cache.lru.filter (fun d => decide (d ≠ c)) ++ [c]
        | none => s.cache.lru) ∧
      (getLink slot t).window =
        .upstream (some ⟨true, if late then .takenLate else .taken, m.tag.val⟩) ∧
      t.port = (if late then (latch .noticeLate s).port else s.port) ∧
      t = { s with
        table := t.table, port := t.port
        links := (setAnswer slot ⟨true, if late then .takenLate else .taken, m.tag.val⟩ s).links
        cache := { s.cache with
          slots := t.cache.slots, queue := t.cache.queue, lru := t.cache.lru } }

/-- The answers to an AMEND from a PRESENT slot (R14, R15): UNKNOWN-TAG, TOO-LATE, TOO-FAR and STALE
change nothing but the reply; otherwise new start and new scale are applied together, the state and
the late flag follow, and TAKEN-LATE latches NOTICE-LATE. -/
def Obligations.AmendsApplyToPendingRecordsWhole : Prop :=
  ∀ (slot : Slot) (m : AmendFields) (s : State), Listens slot s → m.wellFormed →
    (getLink slot s).effective = .present → SourceTableLaw s →
    let answers := fun reply => exec (.amend slot m) s =
      .next (setAnswer slot ⟨true, reply, m.tag.val⟩ s)
    ((∀ r : RecordNo, ¬ Names r slot m.tag s) → answers .unknownTag) ∧
    ∀ r : RecordNo, Names r slot m.tag s →
      ((getRecord r s).state ≠ .pending → answers .tooLate) ∧
      ((getRecord r s).state = .pending → (getRecord r s).cut = none →
        (getRecord r s).length ≤ 256 →
        let start := match m.start with
          | some st => readStamp s.now st
          | none => (getRecord r s).start
        let late := decide (Before start (firstSample (frameOf s.now + 2)))
        if m.start ≠ none ∧ After start (s.now + 4096) then answers .tooFar
        else if m.start ≠ none ∧
            AtOrBefore (start + periods (getRecord r s).length + 15) s.now then answers .stale
        else
          ∃ t : State, RecordOnly r
            { getRecord r s with
              start := start
              scale := (match m.scale with
                | some sc => sc.toInt
                | none => (getRecord r s).scale)
              late := late
              state :=
                if After start s.now then .pending
                else if After (start + periods (getRecord r s).length) s.now then .running
                else .tail } s t ∧
            exec (.amend slot m) s =
              .next (setAnswer slot ⟨true, if late then .takenLate else .taken, m.tag.val⟩
                (if late then latch .noticeLate t else t)))

/-- The answers to a WITHDRAW from a PRESENT slot (R16): a PENDING record is retired, a RUNNING one
is cut at now and becomes TAIL, a TAIL one is left, and without a record of the tag nothing
happens. That a retired record's fields are zeros is the model's choice (assumption 2). -/
def Obligations.WithdrawsRetireOrCut : Prop :=
  ∀ (slot : Slot) (tag : Tag) (s : State), Listens slot s →
    (getLink slot s).effective = .present → SourceTableLaw s →
    ((∀ r : RecordNo, ¬ Names r slot tag s) →
      exec (.withdraw slot tag) s = .next (setAnswer slot ⟨true, .unknownTag, tag.val⟩ s)) ∧
    ∀ r : RecordNo, Names r slot tag s →
      ((getRecord r s).state = .pending → ∃ t, RetiredOnly r s t ∧
        exec (.withdraw slot tag) s = .next (setAnswer slot ⟨true, .taken, tag.val⟩ t)) ∧
      ((getRecord r s).state = .running → After (getRecord r s).fullEnd s.now →
        ∃ t, RecordOnly r { getRecord r s with cut := some s.now, state := .tail } s t ∧
          exec (.withdraw slot tag) s = .next (setAnswer slot ⟨true, .taken, tag.val⟩ t)) ∧
      ((getRecord r s).state = .tail →
        exec (.withdraw slot tag) s = .next (setAnswer slot ⟨true, .alreadyEnded, tag.val⟩ s))

/-- The answers to a CLOSE from a PRESENT slot (R17): a RUNNING record's cut becomes the lesser of
the end stamp's time and E, but no earlier than start, and its state follows at once; a PENDING or
TAIL record is left. That a retired record's fields are zeros is the model's choice (assumption 2).
-/
def Obligations.ClosesCutRunningRecords : Prop :=
  ∀ (slot : Slot) (tag : Tag) (stamp : Half) (s : State), Listens slot s →
    (getLink slot s).effective = .present → SourceTableLaw s →
    let answers := fun reply t => exec (.close slot tag stamp) s =
      .next (setAnswer slot ⟨true, reply, tag.val⟩ t)
    ((∀ r : RecordNo, ¬ Names r slot tag s) → answers .unknownTag s) ∧
    ∀ r : RecordNo, Names r slot tag s →
      ((getRecord r s).state = .pending → answers .notRunning s) ∧
      ((getRecord r s).state = .tail → answers .alreadyEnded s) ∧
      ((getRecord r s).state = .running →
        let lesser :=
          if Before (readStamp s.now stamp) (getRecord r s).endPoint then readStamp s.now stamp
          else (getRecord r s).endPoint
        let v := { getRecord r s with
          cut := some (if Before lesser (getRecord r s).start then (getRecord r s).start
            else lesser) }
        (v.stateAt s.now = none → ∃ t, RetiredOnly r s t ∧ answers .taken t) ∧
        ∀ st, v.stateAt s.now = some st →
          ∃ t, RecordOnly r { v with state := st } s t ∧ answers .taken t)

/-! ### Row links -/

/-- A malformed message, a NOTICE with a limit outside 1 to 256 and an AMEND with neither new start
nor new scale change nothing: the FEED will carry NONE with tag 0, and the window counts as missed
(R154). Once a message has been taken in the window, and outside the upstream phase, which ends at
one place on all rows (R152), no message is received (R153). A NOTICE, AMEND, WITHDRAW or CLOSE from
an ABSENT slot is answered NOT-PRESENT and changes nothing else (R8, R155). -/
def Obligations.MessagesNotHandedOnChangeOnlyTheReply : Prop :=
  ((∀ (slot : Slot) (s : State), Listens slot s →
     exec (.malformedMessage slot) s = .next (setAnswer slot ⟨false, .none, 0⟩ s) ∧
     (∀ m : NoticeFields, (∃ l, m.limit = some l ∧ (l = 0 ∨ 256 < l)) →
       exec (.notice slot m) s = .next (setAnswer slot ⟨false, .none, 0⟩ s)) ∧
     ∀ m : AmendFields, m.start = none → m.scale = none →
       exec (.amend slot m) s = .next (setAnswer slot ⟨false, .none, 0⟩ s)) ∧
   ∀ (slot : Slot) (s : State), InTurn .message slot s →
     ((getLink slot s).window ≠ .upstream none ∨
       ∃ x : Slot, position x = position slot ∧ (getLink x s).window.isUpstream = false) →
     exec (.malformedMessage slot) s = .next s ∧ (∀ m, exec (.notice slot m) s = .next s) ∧
     (∀ m, exec (.amend slot m) s = .next s) ∧ (∀ tag, exec (.withdraw slot tag) s = .next s) ∧
     (∀ tag stamp, exec (.close slot tag stamp) s = .next s) ∧
     ∀ m, exec (.status slot m) s = .next s) ∧
  (∀ (slot : Slot) (s : State), Listens slot s → (getLink slot s).effective = .absent →
     (∀ m : NoticeFields, m.wellFormed →
       exec (.notice slot m) s = .next (setAnswer slot ⟨true, .notPresent, m.tag.val⟩ s)) ∧
     (∀ m : AmendFields, m.wellFormed →
       exec (.amend slot m) s = .next (setAnswer slot ⟨true, .notPresent, m.tag.val⟩ s)) ∧
     (∀ tag : Tag,
       exec (.withdraw slot tag) s = .next (setAnswer slot ⟨true, .notPresent, tag.val⟩ s)) ∧
     ∀ (tag : Tag) (stamp : Half),
       exec (.close slot tag stamp) s = .next (setAnswer slot ⟨true, .notPresent, tag.val⟩ s))

/-- A STATUS sets the last drive state, triggers the slot's suppression on its shock flag, and,
from a PRESENT slot, sets the last residual; the reply is NONE with tag 0 (R156, R141, R143,
R98). From an ABSENT slot, or where no held record has its frame tag (R96), it does nothing else.
A residual arrival of a STATUS (R96, R99, R103 to R105). It is ignored under each of R99's
conditions; otherwise it raises the postscaler count, or, at the interval N, returns it to 0 and
takes a step: one update for each listed contributor that is not blanked and whose |X| is above 0
and at or above θ, unless |E| is below δ or 0, or the updates would take the queue above 256 (R94).
Said where no other step of the moment has been taken (the moment is the model's, assumption 12). -/
def Obligations.StatusesSetDriveShockAndResidualAndArrive : Prop :=
  (∀ (slot : Slot) (m : StatusFields) (s : State), Listens slot s →
     let s1 := modLink slot (fun l => { l with drive := m.drive }) s
     let s2 :=
       if m.shock then latch .shock (modSuppression slot (fun r => { r with
         state := .held, hold := s.settings.global.shockHold, clearRequested := false }) s1)
       else s1
     let s3 := modAdapt (slotTarget slot) (fun a => { a with lastResidual := m.residual.toInt }) s2
     ((getLink slot s).effective = .absent →
       exec (.status slot m) s = .next (setAnswer slot ⟨true, .none, 0⟩ s2)) ∧
     ((getLink slot s).effective = .present →
       (∀ r ∈ getRing (slotTarget slot) s, r.frame.toNat % 8 ≠ m.frameTag.val) →
       exec (.status slot m) s = .next (setAnswer slot ⟨true, .none, 0⟩ s3)) ∧
     ((getLink slot s).effective = .present →
       ∃ t : State, exec (.status slot m) s = .next t ∧
         (getAdapt (slotTarget slot) t).lastResidual = m.residual.toInt ∧
         t = { s3 with
           links := (setAnswer slot ⟨true, .none, 0⟩ s3).links, adaptation := t.adaptation })) ∧
  (∀ (slot : Slot) (m : StatusFields) (s : State) (r : EvalRecord), Listens slot s →
     (getLink slot s).effective = .present →
     (getRing (slotTarget slot) s).find? (fun x => decide (x.frame.toNat % 8 = m.frameTag.val)) =
       some r →
     let u := slotTarget slot
     let g := targetSettings u s
     let a := getAdapt u s
     let e := m.residual.toInt
     let ignored := a.frozen = true ∨ g.enabled = false ∨ 0 < a.hold ∨ 0 < a.settle ∨
       r.suppressed = true ∨ r.parked = true ∨ r.bank ≠ s.store.active ∨ r.partialFlag = true ∨
       r.overflow = true ∨ m.drive = .parked
     let updates : List GainUpdate :=
       if e.natAbs < g.deadband ∨ e = 0 then []
       else (r.contributors.filter fun c => decide (c.blanked = false ∧ c.x ≠ 0 ∧
           s.settings.global.theta ≤ c.x.natAbs)).map
         fun c => ⟨c.source, decide (0 < e ↔ 0 < c.x), g.mu, g.gmax⟩
     let st : Step := ⟨⟨s.now, 1 + slot.val % 12⟩, u, r.bank, updates, false⟩
     ∃ t : State, exec (.status slot m) s = .next t ∧
       (∀ x : Target, x ≠ u → getAdapt x t = getAdapt x s) ∧
       (ignored → getAdapt u t = { a with lastResidual := e } ∧
         t.adaptation.steps = s.adaptation.steps) ∧
       (¬ ignored → a.postscaler + 1 < g.interval →
         getAdapt u t = { a with lastResidual := e, postscaler := a.postscaler + 1 } ∧
         t.adaptation.steps = s.adaptation.steps) ∧
       (¬ ignored → g.interval ≤ a.postscaler + 1 →
         getAdapt u t = { a with lastResidual := e, postscaler := 0 } ∧
         (updates = [] → t.adaptation.steps = s.adaptation.steps) ∧
         (updates ≠ [] → (∀ m ∈ s.adaptation.openMoment, m.moment ≠ st.moment) →
           t.adaptation.steps =
             if queuedUpdates s.adaptation.steps + updates.length ≤ 256 then
               s.adaptation.steps ++ [st]
             else s.adaptation.steps)))

/-- The end of an upstream phase counts the window toward presence by R157's table, takes the entry
actions of a change of the effective state (R159), and then begins the evaluation of a PRESENT slot
for the next frame, or leaves the ABSENT block for the FEED (R71, R85). The evaluation begins with
its snapshot of the live records with their profiles' samples, the blanking width and the slot's own
inputs (R70), with one read to make for each source slot that holds a live record, in ascending
order, and with its bank fixed only where there is none (R73). -/
def Obligations.UpstreamPhaseEndsCountPresenceAndEvaluate : Prop :=
  ∀ (slot : Slot) (s : State) (m : Option Answer), InTurn .phaseEnd slot s →
    (getLink slot s).window = .upstream m →
    let g := s.settings.global
    let l := getLink slot s
    let good : Prop := ∃ a, m = some a ∧ a.good = true
    ∃ t : State, exec (.upstreamPhaseEnd slot) s = .next t ∧
      (l.detected = .absent → good → g.presenceLock ≤ l.goodRun + 1 →
        (getLink slot t).detected = .present ∧ (getLink slot t).goodRun = 0 ∧
          (getLink slot t).missRun = 0) ∧
      (l.detected = .absent → good → l.goodRun + 1 < g.presenceLock →
        (getLink slot t).detected = .absent ∧ (getLink slot t).goodRun = l.goodRun + 1) ∧
      (l.detected = .absent → ¬ good →
        (getLink slot t).detected = .absent ∧ (getLink slot t).goodRun = 0) ∧
      (l.detected = .present → good →
        (getLink slot t).detected = .present ∧ (getLink slot t).missRun = 0) ∧
      (l.detected = .present → ¬ good → l.missRun + 1 < g.presenceUnlock →
        (getLink slot t).detected = .present ∧ (getLink slot t).missRun = l.missRun + 1) ∧
      (l.detected = .present → ¬ good → g.presenceUnlock ≤ l.missRun + 1 →
        (getLink slot t).detected = .absent ∧ (getLink slot t).goodRun = 0 ∧
          (getLink slot t).missRun = 0) ∧
      (getLink slot t).force = l.force ∧ (getLink slot t).drive = l.drive ∧
      (∀ x : Slot, x ≠ slot → getLink x t = getLink x s) ∧
      ((getLink slot t).effective = .present → (getLink slot t).window = .feedPhase m .evaluating ∧
        ∃ e ∈ t.prediction.evaluations, findEvaluation (slotTarget slot) t = some e ∧
          e.snap = snapshot (slotTarget slot) t ∧
          EvaluationBegun (slotTarget slot) (frameOf s.now + 1) t e) ∧
      ((getLink slot t).effective = .absent →
        (getLink slot t).window = .feedPhase m (.ready absentBlock)) ∧
      (l.effective = .present → (getLink slot t).effective = .absent → EnteredAbsent slot s t) ∧
      (l.effective = .absent → (getLink slot t).effective = .present → EnteredPresent slot s t) ∧
      ((getLink slot t).effective = l.effective →
        t = { s with links := t.links, prediction := t.prediction })

/-- The FEED of a window whose block is ready is sent once, with the reply, the tag of the next
frame and the block, and one flagged CLIPPED latches CLIPPED (R161, R85). The FEED phase begins at
one place on all eight rows: the evaluations of its window that are still in flight on any row have
ended before it, each written into its slot's ring with its block ready (R71, R91, R152). Their
reads that still wait are made before it, at each access that of the lowest target in flight, so
none is made before one that waits for a lower target (R73); that they are made at that moment is
the model's choice (assumption 15). After the FEED there is no other. A FEED that the queue names
while the window's upstream phase stands open finds that phase ended (the model's choice, assumption
4). -/
def Obligations.FeedsGoOutOnceWithTheirBlock : Prop :=
  (∀ (slot : Slot) (s : State) (m : Option Answer) (b : Block), Feeds slot s →
    (getLink slot s).window = .feedPhase m (.ready b) →
    (∀ x : Slot, position x = position slot → (getLink x s).window.isEvaluating = false) →
    let feed : Feed :=
      { reply := (match m with | some a => a.reply | none => .none)
        tag := (match m with | some a => a.tag | none => 0)
        block := b
        frameTag := (s.now.toNat / 8 + 1) % 8 }
    let s1 := modLink slot (fun l => { l with window := .over, sent := some feed }) s
    exec (.feed slot) s = .next (if b.clipped then latch .clipped s1 else s1)) ∧
  (∀ (slot : Slot) (s : State), Feeds slot s → WindowLaw s →
    ∃ t : State, exec (.feed slot) s = exec (.feed slot) t ∧ Feeds slot t ∧
      (∀ (x : Slot) (m : Option Answer) (e : Evaluation) (p : SlotSnap),
        position x = position slot → (getLink x s).window = .feedPhase m .evaluating →
        findEvaluation (slotTarget x) s = some e → e.snap.slotPart = some p →
        let bank := e.bank.getD s.store.active
        let read := fun source : Slot => (tget (s.store.bank bank).lists source).find?
          fun y => decide (y.target = e.target)
        let ended := { e with
          bank := some bank
          done := e.done ++ e.waiting.map fun source =>
            ⟨source, (read source).map fun y => ⟨y.gain, y.delay⟩⟩
          waiting := [] }
        getLink x t = { getLink x s with
          window := .feedPhase m (.ready (slotBlock p (predictedSums ended) (partialOf ended))) } ∧
        getRing (slotTarget x) t = pushRing (evalRecord ended bank) (getRing (slotTarget x) s) ∧
        findEvaluation (slotTarget x) t = none) ∧
      (∀ x : Slot, position x ≠ position slot ∨ (getLink x s).window.isEvaluating = false →
        getLink x t = getLink x s ∧ getRing (slotTarget x) t = getRing (slotTarget x) s) ∧
      (∀ k : Station, getRing (stationTarget k) t = getRing (stationTarget k) s) ∧
      t = { s with
        links := t.links
        prediction := t.prediction
        adaptation := { s.adaptation with gap := t.adaptation.gap } }) ∧
  (∀ (slot x : Slot) (s : State) (e : Evaluation), Feeds slot s → WindowLaw s → RingLaw s →
    position x = position slot → (getLink x s).window.isEvaluating = true →
    e ∈ s.prediction.evaluations → e.waiting ≠ [] → e.target ≤ slotTarget x →
    (∀ y ∈ s.prediction.evaluations, y.waiting ≠ [] → e.target ≤ y.target) →
    ∃ t : State, exec .predictionListRead s = .next t ∧
      exec (.feed slot) s = exec (.feed slot) t) ∧
  (∀ (slot : Slot) (s : State), Feeds slot s → (getLink slot s).window = .over →
    (∀ x : Slot, position x = position slot → (getLink x s).window.isEvaluating = false) →
    exec (.feed slot) s = .next s) ∧
  ∀ (slot : Slot) (s : State), InTurn .feed slot s →
    (getLink slot s).window.isUpstream = true →
    (∀ x : Slot, x ≠ slot → position x = position slot →
      (getLink x s).window.isUpstream = false) →
    ∃ t : State, exec (.upstreamPhaseEnd slot) s = .next t ∧
      exec (.feed slot) s = exec (.feed slot) t

/-- FORCE-PRESENCE sets, releases or keeps the force and answers the slot's presence as it then
stands (R160); a change of the effective state takes the entry actions (R159), and a slot above 95
or an unknown mode is answered BAD-ARGUMENT. -/
def Obligations.ForcePresenceSetsTheForce : Prop :=
  ∀ (a : ForceArgs) (s : State), TakesFrames s →
    (95 < a.index.toNat ∨ 3 < a.mode.toNat →
      exec (.forcePresence (.fields a)) s = .next (replied (bare .badArgument) s)) ∧
    ∀ slot : Slot, a.index.toNat = slot.val → a.mode.toNat ≤ 3 →
      ∃ t : State, exec (.forcePresence (.fields a)) s = .next t ∧
        (getLink slot t).force =
          (if a.mode = 0 then some .present else if a.mode = 1 then some .absent
            else if a.mode = 2 then none else (getLink slot s).force) ∧
        (getLink slot t).detected = (getLink slot s).detected ∧
        (getLink slot t).goodRun = (getLink slot s).goodRun ∧
        (getLink slot t).missRun = (getLink slot s).missRun ∧
        (getLink slot t).drive = (getLink slot s).drive ∧
        (∀ x : Slot, x ≠ slot → getLink x t = getLink x s) ∧
        t.port.held = okWith (.presence (getLink slot t).effective (getLink slot t).detected
          (getLink slot t).force (getLink slot t).goodRun (getLink slot t).missRun
          (getLink slot t).drive) ∧
        ((getLink slot s).effective = .present → (getLink slot t).effective = .absent →
          EnteredAbsent slot s t ∧
          (∀ w, (getLink slot s).window = .feedPhase w .evaluating →
            (getLink slot t).window = .feedPhase w (.ready absentBlock))) ∧
        ((getLink slot s).effective = .absent → (getLink slot t).effective = .present →
          EnteredPresent slot s t) ∧
        ((getLink slot t).effective = (getLink slot s).effective →
          t = replied t.port.held { s with links := t.links })

/-! ### The Profile Cache -/

/-- A fetch starts when none is in flight, the port is OWNED, an id is queued and a target slot is
found (R38): the lowest EMPTY slot, or else the first slot of the LRU order that is FILLED with
count 0 (R39). The head leaves the queue, the slot is FILLING and leaves the order, and the fetch
runs at the divider in force (R32). Otherwise there is no start. Where all four hold the start is
due, and it comes before every command that follows, but for a NOTICE or a DROP that it yields to
(R38, R39, R45); so a LEND then finds a fetch in flight and is answered LEND-PENDING (R47). Its read
transaction carries instruction 3Eh, the page's address, eight dummy clocks and the page, each byte
high nibble first, lane 3 the most significant bit: 16 clocks and 2 for each byte (R31). -/
def Obligations.FetchesStartIntoTheirTargetSlot : Prop :=
  (∀ s : State, Running s → NoEventDue s →
    (∀ (id : ProfileId) (rest : List ProfileId) (c : CacheNo), s.cache.flight = none →
      s.cache.port = .owned → s.cache.queue = id :: rest →
      ((tget s.cache.slots c = .empty ∧ ∀ d : CacheNo, d < c → tget s.cache.slots d ≠ .empty) ∨
        ((∀ d : CacheNo, tget s.cache.slots d ≠ .empty) ∧
          ∃ before after : List CacheNo, s.cache.lru = before ++ c :: after ∧
            (tget s.cache.slots c).replaceable = true ∧
            ∀ d ∈ before, (tget s.cache.slots d).replaceable = false)) →
      let t := { s with cache := { s.cache with
        slots := tset s.cache.slots c (.filling id)
        lru := s.cache.lru.filter fun d => decide (d ≠ c)
        queue := rest
        flight := some ⟨c, id, s.settings.global.divider⟩ } }
      exec .fetchStart s = .next t ∧ startDue s = true ∧ startDue t = false ∧
      (∀ cmd : Instr, (∀ r : RecordNo, cmd ≠ .recordStartReached r ∧ cmd ≠ .recordEndReached r ∧
        cmd ≠ .retirement r) → cmd ≠ .coldResetEnd → yieldsTo cmd s = false →
        exec cmd s = exec cmd t) ∧
      (frameRefused s = false → exec (.lend (.fields ())) s =
        .next (replied (okWith (.port .lendPending))
          { t with cache := { t.cache with port := .lendPending } }))) ∧
    (s.cache.flight ≠ none ∨ s.cache.port ≠ .owned ∨ s.cache.queue = [] ∨
      ((∀ c : CacheNo, tget s.cache.slots c ≠ .empty) ∧
        ∀ c ∈ s.cache.lru, (tget s.cache.slots c).replaceable = false) →
      exec .fetchStart s = .next s)) ∧
  (∀ (id : ProfileId) (page : List Byte),
    (readTransaction id page).length = 16 + 2 * page.length ∧
    readTransaction id page = [.out 0x3, .out 0xE] ++
      [5, 4, 3, 2, 1, 0].map (fun i : Nat => .out (BitVec.ofNat 4 (id.val * 1024 / 16 ^ i))) ++
      List.replicate 8 .dummy ++
      page.flatMap fun b =>
        [.input (BitVec.ofNat 4 (b.toNat / 16)), .input (BitVec.ofNat 4 b.toNat)]) ∧
  ∀ n : BitVec 4, n.toNat = 8 * (laneBit n 3).toNat + 4 * (laneBit n 2).toNat +
    2 * (laneBit n 1).toNat + (laneBit n 0).toNat

/-- A good completion (R40): the slot is FILLED with the page's samples as the most recently
used, the fetch ends, a pending lend takes place, and each live provisional record of the id
takes its confirmed length and the state it gives, or is retired (R20). Records of other ids, and
those not provisional, stand. A bad completion (R41): the slot becomes EMPTY, the id joins the
unusable set, FETCH-FAIL is latched, no record changes (R21), and a pending lend takes place
(R47, R48). With no fetch in flight there is no completion of either kind (the model's choice,
assumption 1); that a record retired by the fixing is all zeros is the model's choice (assumption
2). -/
def Obligations.FetchesEndInAFilledSlotOrAnUnusableId : Prop :=
  (∀ (page : List Half) (f : Flight) (s : State), Ready s → s.cache.flight = some f →
     1 ≤ page.length → page.length ≤ 256 →
     ∃ t : State, exec (.fetchCompleteGood page) s = .next t ∧ t.cache.flight = none ∧
       tget t.cache.slots f.slot =
         .filled f.id (page.map BitVec.toInt) (liveNaming f.id t) ∧
       (∀ c : CacheNo, c ≠ f.slot →
         (tget t.cache.slots c).heldId = (tget s.cache.slots c).heldId) ∧
       t.cache.lru = s.cache.lru ++ [f.slot] ∧ t.cache.queue = s.cache.queue ∧
       t.cache.unusable = s.cache.unusable ∧
       t.cache.port = (if s.cache.port = .lendPending then .lent else s.cache.port) ∧
       t.port = (if s.cache.port = .lendPending then (latch .lendGranted s).port else s.port) ∧
       (∀ r : RecordNo, isLive (getRecord r s) → (getRecord r s).profile = f.id →
         (getRecord r s).provisional = true →
         let v := { getRecord r s with
           length := (match (getRecord r s).limit with
             | none => page.length
             | some l => if l ≤ page.length then l else page.length)
           provisional := false }
         getRecord r t = (match v.stateAt s.now with
           | some st => { v with state := st }
           | none => freeRecord)) ∧
       (∀ r : RecordNo, (isLive (getRecord r s) = false ∨ (getRecord r s).profile ≠ f.id ∨
         (getRecord r s).provisional = false) → getRecord r t = getRecord r s) ∧
       t = { s with table := t.table, cache := t.cache, port := t.port }) ∧
  ((∀ (f : Flight) (s : State), Ready s → s.cache.flight = some f →
     let t := latch .fetchFail { s with cache := { s.cache with
       slots := tset s.cache.slots f.slot .empty
       unusable := tset s.cache.unusable f.id true
       flight := none } }
     exec .fetchCompleteBad s = .next
       (if s.cache.port = .lendPending then
         latch .lendGranted { t with cache := { t.cache with port := .lent } }
       else t)) ∧
   ∀ s : State, Ready s → s.cache.flight = none →
     exec .fetchCompleteBad s = .next s ∧ ∀ page, exec (.fetchCompleteGood page) s = .next s)

/-- PRELOAD, RETRY and DROP answer by the first case that applies (R43, R44, R45); an id above 511
is answered BAD-ARGUMENT (2.6). A DROP of the count-zero slot that a due fetch start would choose,
taken first, empties it, and the start then takes the lowest EMPTY slot (R45; that the queue says
which is first is the model's choice, assumption 22). -/
def Obligations.CacheCommandsAnswerByTheirFirstCase : Prop :=
  (∀ (s : State) (h : Half) (id : ProfileId) (c : CacheNo) (p : List Int) (n : Nat), Running s →
    NoEventDue s → frameRefused s = false → h.toNat = id.val → startYields id s = true →
    residentSlot id s = some c → tget s.cache.slots c = .filled id p n →
    ∃ t : State, exec (.drop (.fields h)) s = .next t ∧ n = 0 ∧
      t = replied okResponse { s with cache := { s.cache with
        slots := tset s.cache.slots c .empty
        lru := s.cache.lru.filter fun d => decide (d ≠ c) } } ∧
      startDue t = true ∧
      ∃ d : CacheNo, fetchTarget t = some d ∧ tget t.cache.slots d = .empty ∧
        ∀ x : CacheNo, x < d → tget t.cache.slots x ≠ .empty) ∧
  ∀ s : State, TakesFrames s →
    (∀ h : Half, 511 < h.toNat →
      exec (.preload (.fields h)) s = .next (replied (bare .badArgument) s) ∧
      exec (.retry (.fields h)) s = .next (replied (bare .badArgument) s) ∧
      exec (.drop (.fields h)) s = .next (replied (bare .badArgument) s)) ∧
    ∀ (h : Half) (id : ProfileId), h.toNat = id.val →
      let queuedNow := { s with cache := { s.cache with queue := s.cache.queue ++ [id] } }
      let usable := { s with cache := { s.cache with unusable := tset s.cache.unusable id false } }
      let named := ∃ r : RecordNo, isLive (getRecord r s) ∧ (getRecord r s).profile = id
      (exec (.preload (.fields h)) s = .next
        (if unusable id s = true then replied (bare .profileBad) s
          else if absentProfile id s = false then replied okResponse s
          else if 16 ≤ s.cache.queue.length then replied (bare .busy) s
          else replied okResponse queuedNow)) ∧
      (exec (.retry (.fields h)) s = .next
        (if unusable id s = false then replied okResponse s
          else if ¬ named then replied okResponse usable
          else if 16 ≤ s.cache.queue.length then replied (bare .busy) s
          else replied okResponse { usable with
            cache := { usable.cache with queue := s.cache.queue ++ [id] } })) ∧
      ((∀ f, s.cache.flight = some f → f.id = id →
        exec (.drop (.fields h)) s = .next (replied (bare .inUse) s)) ∧
        (inFlight id s = false → residentSlot id s = none →
          exec (.drop (.fields h)) s = .next (replied okResponse s)) ∧
        ∀ (c : CacheNo) (p : List Int) (n : Nat), inFlight id s = false →
          residentSlot id s = some c → tget s.cache.slots c = .filled id p n →
          exec (.drop (.fields h)) s = .next
            (if n = 0 then replied okResponse { s with cache := { s.cache with
                slots := tset s.cache.slots c .empty
                lru := s.cache.lru.filter fun d => decide (d ≠ c) } }
              else replied (bare .inUse) s))

/-- LEND and RECLAIM by the port's state (R47, R48, R49): an entry into LENT latches LEND-GRANTED,
and a RECLAIM from LENT empties every FILLED slot of count 0 and takes it out of the LRU order. The
lines of the port: while it is LENT, select, clock and data lanes are released and PMLENT is high;
otherwise PMLENT is low, select is low and the clock runs at the fetch's divider through a fetch,
and select is high and the clock low without one (R31, R32, R48, R49). That the data lanes of a port
that is not lent do not count as released between transactions is the model's choice (assumption
18). -/
def Obligations.LendAndReclaimFollowThePortState : Prop :=
  (∀ s : State,
    (s.cache.port = .lent → portSelect s = none ∧ memoryClock s = .released ∧
      lanesReleased s = true ∧ pmlentHigh s = true) ∧
    (s.cache.port ≠ .lent → lanesReleased s = false ∧ pmlentHigh s = false ∧
      (s.cache.flight = none → portSelect s = some true ∧ memoryClock s = .low) ∧
      ∀ f, s.cache.flight = some f →
        portSelect s = some false ∧ memoryClock s = .running f.divider)) ∧
  ∀ s : State, TakesFrames s →
    (s.cache.port = .owned → s.cache.flight = none →
      exec (.lend (.fields ())) s = .next (replied (okWith (.port .lent))
        (latch .lendGranted { s with cache := { s.cache with port := .lent } }))) ∧
    (s.cache.port = .owned → s.cache.flight ≠ none →
      exec (.lend (.fields ())) s = .next (replied (okWith (.port .lendPending))
        { s with cache := { s.cache with port := .lendPending } })) ∧
    (s.cache.port ≠ .owned →
      exec (.lend (.fields ())) s = .next (replied (bare .alreadyLent) s)) ∧
    (s.cache.port = .owned →
      exec (.reclaim (.fields ())) s = .next (replied (bare .notLent) s)) ∧
    (s.cache.port = .lendPending →
      exec (.reclaim (.fields ())) s =
        .next (replied okResponse { s with cache := { s.cache with port := .owned } })) ∧
    (s.cache.port = .lent → ∃ t : State, exec (.reclaim (.fields ())) s = .next t ∧
      (∀ c : CacheNo, tget t.cache.slots c =
        match tget s.cache.slots c with
        | .filled id p n => if n = 0 then .empty else .filled id p n
        | x => x) ∧
      t.cache.lru = s.cache.lru.filter (fun c => !(tget s.cache.slots c).replaceable) ∧
      t = replied okResponse { s with cache := { s.cache with
        port := .owned, slots := t.cache.slots, lru := t.cache.lru } })

/-! ### The Coupling Store -/

/-- LIST-WRITE is judged when it is taken (R55, R56, R57): the source, the pending swap, the list's
first fault with its position, the pool; one that passes waits for its grant with the delays clipped
to 15, and no refused write changes the store. -/
def Obligations.ListWritesAreJudgedWhenTaken : Prop :=
  ∀ (a : ListWriteArgs) (s : State), TakesFrames s →
    (95 < a.source.toNat →
      exec (.listWrite (.fields a)) s = .next (replied (bare .badArgument) s)) ∧
    ∀ source : Slot, a.source.toNat = source.val →
      let target := fun i : Nat => (a.entries[i]?.map fun e => e.target.toNat).getD 0
      let fault := fun i : Nat =>
        if 112 ≤ target i then some ListFault.range
        else if target i = source.val then some ListFault.self
        else if 0 < i ∧ target i = target (i - 1) then some ListFault.duplicate
        else if 0 < i ∧ target i < target (i - 1) then some ListFault.order
        else none
      let bank := s.store.bank s.store.staging
      (s.store.swapPending = true →
        exec (.listWrite (.fields a)) s = .next (replied (bare .swapPending) s)) ∧
      (s.store.swapPending = false → 24 < a.entries.length →
        exec (.listWrite (.fields a)) s = .next (replied ⟨.badList, .badList .length none⟩ s)) ∧
      (s.store.swapPending = false → a.entries.length ≤ 24 →
        (∀ (i : Nat) (f : ListFault), i < a.entries.length → fault i = some f →
          (∀ j < i, fault j = none) →
          exec (.listWrite (.fields a)) s = .next (replied ⟨.badList, .badList f (some i)⟩ s)) ∧
        ((∀ i < a.entries.length, fault i = none) →
          (1536 < bank.pool - (tget bank.lists source).length + a.entries.length →
            exec (.listWrite (.fields a)) s = .next (replied (bare .poolFull) s)) ∧
          (bank.pool - (tget bank.lists source).length + a.entries.length ≤ 1536 →
            ∃ l : List Entry, l.map (fun e => (e.target.val, e.gain, e.delay.val)) =
              a.entries.map (fun e => (e.target.toNat, e.gain.toInt, min e.delay.toNat 15)) ∧
            exec (.listWrite (.fields a)) s = .next (begun (.listWrite source l
              (a.entries.countP fun e => decide (15 < e.delay.toNat))) s))))

/-- LIST-READ, SOURCE-LIST and CAPTURE when they are taken: their arguments and a pending swap are
judged, and otherwise they wait for a grant (R28, R58, R59). A waiting management access is granted
when neither prediction reads nor gain updates wait (R64): LIST-WRITE replaces the staging list
whole, with the pool count − m + n (R57); LIST-READ answers the named bank's list as it stands
(R58); SOURCE-LIST answers up to 32 live records in ascending number with the number to continue
from (R28). While others wait nothing is granted. That between two accesses of one requester, marked
by its `gap`, another may be granted is the model's reading (assumption 16), and that SOURCE-LIST
ignores the slot byte under choice 0 (assumption 9). -/
def Obligations.WaitingCommandsBeginAndAreGrantedLast : Prop :=
  (∀ s : State, TakesFrames s →
     (∀ a : ListReadArgs, 1 < a.bank.toNat ∨ 95 < a.source.toNat →
       exec (.listRead (.fields a)) s = .next (replied (bare .badArgument) s)) ∧
     (∀ (a : ListReadArgs) (source : Slot), a.bank.toNat ≤ 1 → a.source.toNat = source.val →
       exec (.listRead (.fields a)) s =
         .next (begun (.listRead (if a.bank = 0 then .a else .b) source) s)) ∧
     (∀ a : SourceListArgs, 127 < a.first.toNat ∨ 1 < a.slotChoice.toNat ∨
         (a.slotChoice = 1 ∧ 95 < a.slot.toNat) →
       exec (.sourceList (.fields a)) s = .next (replied (bare .badArgument) s)) ∧
     (∀ (a : SourceListArgs) (first : RecordNo) (slot : Option Slot), a.first.toNat = first.val →
       (a.slotChoice = 0 ∧ slot = none ∨
         a.slotChoice = 1 ∧ ∃ x : Slot, slot = some x ∧ a.slot.toNat = x.val) →
       exec (.sourceList (.fields a)) s = .next (begun (.sourceList first slot) s)) ∧
     (s.store.swapPending = true →
       exec (.capture (.fields ())) s = .next (replied (bare .swapPending) s)) ∧
     (s.store.swapPending = false →
       exec (.capture (.fields ())) s = .next (begun .captureEmpty s))) ∧
  (∀ s : State, Ready s →
     ((s.prediction.gap = true ∨ ∀ e ∈ s.prediction.evaluations, e.waiting = []) →
       (s.adaptation.gap = true ∨ s.adaptation.steps = []) →
       (∀ (source : Slot) (l : List Entry) (clipped : Nat),
         s.port.executing = some (.listWrite source l clipped) →
         let bank := s.store.bank s.store.active.other
         let pool := bank.pool - (tget bank.lists source).length + l.length
         exec .listWriteGrant s = .next
           (completed (okWith (.listWritten s.store.active.other l.length clipped pool))
             { s with store :=
               s.store.setBank s.store.active.other ⟨tset bank.lists source l, pool⟩ })) ∧
       (∀ (name : BankName) (source : Slot), s.port.executing = some (.listRead name source) →
         exec .listReadGrant s = .next
           (completed (okWith (.list name (decide (name = s.store.active)) s.now
             (s.store.bank name).pool (tget (s.store.bank name).lists source))) s)) ∧
       ∀ (first : RecordNo) (slot : Option Slot), s.port.executing = some (.sourceList first slot) →
         let numbers := (List.finRange 128).filter fun r : RecordNo => decide (first ≤ r ∧
           isLive (getRecord r s) ∧ (slot = none ∨ slot = some (getRecord r s).slot))
         exec .sourceListGrant s = .next (completed (okWith (.sources s.now s.store.active
           ((numbers.take 32).map fun r => ⟨r, (getRecord r s).state, (getRecord r s).slot,
             (getRecord r s).tag, (getRecord r s).profile, (getRecord r s).provisional⟩)
           (if 32 < numbers.length then (numbers[31]?).map fun r => r.val + 1 else none))) s)) ∧
     ((s.prediction.gap = false ∧ ∃ e ∈ s.prediction.evaluations, e.waiting ≠ []) ∨
         (s.adaptation.gap = false ∧ s.adaptation.steps ≠ []) →
       exec .listWriteGrant s = .next s ∧ exec .listReadGrant s = .next s ∧
         exec .sourceListGrant s = .next s ∧ exec .captureEmptyGrant s = .next s ∧
         exec .captureCopyGrant s = .next s))

/-- CAPTURE's grants (R59): the first empties the staging bank, each of the next 96 copies one
active list as it stands, in source order, and after the last it completes with the staging pool
count. After each the other requesters count as having presented theirs (the model's marks,
assumption 16). -/
def Obligations.CaptureEmptiesThenCopiesListByList : Prop :=
  ∀ s : State, Ready s → (s.adaptation.gap = true ∨ s.adaptation.steps = []) →
    (s.prediction.gap = true ∨ ∀ e ∈ s.prediction.evaluations, e.waiting = []) →
    let staging := s.store.active.other
    (s.port.executing = some .captureEmpty →
      ∃ t : State, exec .captureEmptyGrant s = .next t ∧
        t.port = { s.port with executing := some (.captureCopy 0) } ∧
        (∀ x : Slot, tget (t.store.bank staging).lists x = []) ∧ (t.store.bank staging).pool = 0 ∧
        t.store.bank s.store.active = s.store.bank s.store.active ∧
        t.store.active = s.store.active ∧ t.store.swapPending = s.store.swapPending ∧
        t = accessed { s with store := t.store, port := t.port }) ∧
    ∀ source : Slot, s.port.executing = some (.captureCopy source) →
      let l := tget (s.store.bank s.store.active).lists source
      ∃ t : State, exec .captureCopyGrant s = .next t ∧
        (∀ x : Slot, tget (t.store.bank staging).lists x =
          if x = source then l else tget (s.store.bank staging).lists x) ∧
        (t.store.bank staging).pool = (s.store.bank staging).pool -
          (tget (s.store.bank staging).lists source).length + l.length ∧
        t.store.bank s.store.active = s.store.bank s.store.active ∧
        t.store.active = s.store.active ∧ t.store.swapPending = s.store.swapPending ∧
        (∀ next : Slot, next.val = source.val + 1 →
          t.port = { s.port with executing := some (.captureCopy next) }) ∧
        (source.val = 95 → t.port = { s.port with
          executing := none, held := okWith (.captured staging (t.store.bank staging).pool) }) ∧
        t = accessed { s with store := t.store, port := t.port }

/-- SWAP-REQUEST sets the swap-pending flag and answers OK, or SWAP-PENDING where it is set
already (R60). SWAP-CANCEL clears the swap-pending flag and answers OK, or NOT-PENDING where it
is clear (R62). -/
def Obligations.SwapCommandsSetAndClearThePendingFlag : Prop :=
  (∀ s : State, TakesFrames s →
     (s.store.swapPending = false → exec (.swapRequest (.fields ())) s =
       .next (replied ⟨.ok, .none⟩ { s with store := { s.store with swapPending := true } })) ∧
     (s.store.swapPending = true → exec (.swapRequest (.fields ())) s =
       .next (replied ⟨.swapPending, .none⟩ s))) ∧
  (∀ s : State, TakesFrames s →
     (s.store.swapPending = true → exec (.swapCancel (.fields ())) s =
       .next (replied ⟨.ok, .none⟩ { s with store := { s.store with swapPending := false } })) ∧
     (s.store.swapPending = false → exec (.swapCancel (.fields ())) s =
       .next (replied ⟨.notPending, .none⟩ s)))

/-! ### Prediction -/

/-- A slot's evaluation runs in the turnaround of its window: a grant that serves a read of it finds
the upstream phases of the window ended on every row (R152), those that the queue has left out by
default (the model's choice, assumption 4). A grant to the Prediction Engine serves the first
waiting read of the evaluation in flight with the lowest target among those that wait (R73): the
evaluation's bank is fixed as the one then active unless it is already (R63), and the read returns
the entry for the target, or its absence (R65). The store does not change, and where no read waits
nothing does. A gain update granted between two reads, before the read of its list, is seen by that
read (R67, R74). That an update may be granted there, and the marks `gap` of whose access came last,
are the model's reading (assumption 16). -/
def Obligations.PredictionReadsServeTheLowestTarget : Prop :=
  (∀ (s : State) (e : Evaluation) (source : Slot) (more : List Slot), Ready s → RingLaw s →
    e ∈ s.prediction.evaluations → e.waiting = source :: more →
    (∀ x ∈ s.prediction.evaluations, x.waiting ≠ [] → e.target ≤ x.target) →
    TurnaroundBegun e.target s →
    let bank := e.bank.getD s.store.active
    let entry := (tget (s.store.bank bank).lists source).find? fun x => decide (x.target = e.target)
    exec .predictionListRead s = .next { s with
      adaptation := { s.adaptation with gap := false }
      prediction := { s.prediction with
        gap := true
        evaluations := s.prediction.evaluations.map fun x =>
          if x.target = e.target then
            { e with
              bank := some bank
              done := e.done ++ [⟨source, entry.map fun y => ⟨y.gain, y.delay⟩⟩]
              waiting := more }
          else x } }) ∧
  (∀ (s : State) (e : Evaluation) (source : Slot) (more : List Slot) (st : Step) (rest : List Step)
    (u : GainUpdate) (later : List GainUpdate) (y : Entry), Ready s → RingLaw s →
    TurnaroundBegun e.target s →
    e ∈ s.prediction.evaluations → e.waiting = source :: more →
    (∀ x ∈ s.prediction.evaluations, x.waiting ≠ [] → e.target ≤ x.target) →
    s.prediction.gap = true → s.adaptation.steps = st :: rest → st.updates = u :: later →
    st.bank = s.store.active → e.bank.getD s.store.active = s.store.active → st.target = e.target →
    u.source = source → (tget (s.store.bank s.store.active).lists source).find?
      (fun x => decide (x.target = e.target)) = some y →
    let gain := max (-(u.gmax : Int)) (min u.gmax (if u.up then y.gain + u.mu else y.gain - u.mu))
    ∃ t t' : State, exec .gainUpdate s = .next t ∧ exec .predictionListRead t = .next t' ∧
      ∃ x ∈ t'.prediction.evaluations, x.target = e.target ∧ x.waiting = more ∧
        x.done = e.done ++ [⟨source, some ⟨gain, y.delay⟩⟩]) ∧
  (∀ (slot x : Slot) (s : State) (e : Evaluation), InTurn .phaseEnd slot s → RingLaw s →
    e ∈ s.prediction.evaluations → e.waiting ≠ [] → e.target = slotTarget slot →
    (∀ y ∈ s.prediction.evaluations, y.waiting ≠ [] → e.target ≤ y.target) →
    (getLink slot s).window.isEvaluating = true → FirstUpstream x slot s →
    ∃ t : State, exec (.upstreamPhaseEnd x) s = .next t ∧
      exec .predictionListRead s = exec .predictionListRead t) ∧
  ∀ s : State, Ready s → (∀ e ∈ s.prediction.evaluations, e.waiting = []) →
    exec .predictionListRead s = .next s

/-- EVALUATION-END of an evaluation whose reads are all made writes its record into the target's
ring of three, in place of the one written longest ago where the ring is full (R91), drops the
evaluation, and makes a slot's block ready (R70). The end of a slot's evaluation finds the upstream
phases of its window ended on every row (R152), those that the queue has left out by default (the
model's choice, assumption 4). An evaluation that still waits does not end. -/
def Obligations.EvaluationsEndIntoTheRing : Prop :=
  (∀ (u : Target) (s : State) (e : Evaluation) (bank : BankName), Ready s →
    findEvaluation u s = some e → e.waiting = [] → e.bank = some bank → TurnaroundBegun u s →
    ∃ t : State, exec (.evaluationEnd u) s = .next t ∧
      getRing u t = (if (getRing u s).length < 3 then getRing u s else (getRing u s).tail) ++
        [evalRecord e bank] ∧
      (∀ x : Target, x ≠ u → getRing x t = getRing x s) ∧
      t.prediction.evaluations =
        s.prediction.evaluations.filter (fun x => decide (x.target ≠ u)) ∧
      (∀ (slot : Slot) (p : SlotSnap) (m : Option Answer), u = slotTarget slot →
        e.snap.slotPart = some p → (getLink slot s).window = .feedPhase m .evaluating →
        (getLink slot t).window =
          .feedPhase m (.ready (slotBlock p (predictedSums e) (partialOf e)))) ∧
      (∀ x : Slot, slotTarget x ≠ u → getLink x t = getLink x s) ∧
      t = { s with prediction := t.prediction, links := t.links }) ∧
  (∀ (slot x : Slot) (s : State) (e : Evaluation), InTurn .phaseEnd slot s →
    findEvaluation (slotTarget slot) s = some e → e.waiting = [] → e.bank ≠ none →
    (getLink slot s).window.isEvaluating = true → FirstUpstream x slot s →
    ∃ t : State, exec (.upstreamPhaseEnd x) s = .next t ∧
      exec (.evaluationEnd (slotTarget slot)) s = exec (.evaluationEnd (slotTarget slot)) t) ∧
  ∀ (u : Target) (s : State), Ready s →
    (findEvaluation u s = none ∨ ∃ e, findEvaluation u s = some e ∧ e.waiting ≠ []) →
    exec (.evaluationEnd u) s = .next s

/-- The predicted sums (R78, R79, R80): each is the sum over the contributors of p × A × g ÷ 2^29
rounded to nearest, halves up, at the samples that contribute and 0 elsewhere; over at most 128
records with 16-bit samples, scales and gains it lies from −8388608 to 8388352. The drive X of a
contributor (R89) lies from −32767 to 32768, and it is 0 where the profile is not resident. -/
def Obligations.PredictedSumsAndDrivesStayInTheirBounds : Prop :=
  (∀ (e : Evaluation) (i : Fin 8),
     predictedSum e i.val = ((contributorsOf e).map fun x =>
       if 0 ≤ elapsed x.1 x.2 (firstSample e.frame + BitVec.ofNat 32 i.val) ∧
           elapsed x.1 x.2 (firstSample e.frame + BitVec.ofNat 32 i.val) < x.1.length ∧
           Before (firstSample e.frame + BitVec.ofNat 32 i.val - BitVec.ofNat 32 x.2.delay.val)
             x.1.endPoint then
         (((x.1.samples.getD []).getD
             (elapsed x.1 x.2 (firstSample e.frame + BitVec.ofNat 32 i.val)).toNat 0 *
           x.1.scale * x.2.gain) + 2 ^ 28).fdiv (2 ^ 29)
       else 0).sum ∧
     (e.snap.records.length ≤ 128 →
       (∀ r ∈ e.snap.records, -32768 ≤ r.scale ∧ r.scale ≤ 32767 ∧
         ∀ p, r.samples = some p → ∀ x ∈ p, -32768 ≤ x ∧ x ≤ 32767) →
       (∀ x ∈ e.done, ∀ c, x.entry = some c → -32768 ≤ c.gain ∧ c.gain ≤ 32767) →
       -8388608 ≤ predictedSum e i.val ∧ predictedSum e i.val ≤ 8388352)) ∧
  (∀ (f : Frame) (r : SnapRecord) (c : Coupling),
     (r.samples = none → frameDrive f r c = 0) ∧
     (-32768 ≤ r.scale → r.scale ≤ 32767 →
       (∀ p, r.samples = some p → ∀ x ∈ p, -32768 ≤ x ∧ x ≤ 32767) →
       -32767 ≤ frameDrive f r c ∧ frameDrive f r c ≤ 32768))

/-- What an evaluation record holds (R87). The contributors are the live records of the snapshot
whose source's read returned an entry, in order, each with that entry (R76). PARTIAL where one of
them has no resident profile (R77); SUPPRESSED and PARKED by the slot's snapshot, both if both hold
(R84); OVERFLOW where there are more than 16, of which the first 16 are listed (R88), each with X,
the mean of its eight unscaled drives rounded toward zero (R89), and with the blanked mark (R90). -/
def Obligations.EvaluationRecordsListWhatTheEvaluationFound : Prop :=
  ∀ (e : Evaluation) (bank : BankName),
    let r := evalRecord e bank
    let cs := contributorsOf e
    let read := fun slot : Slot => (e.done.find? fun x => decide (x.source = slot)).bind (·.entry)
    cs.map (·.1) = e.snap.records.filter (fun x => (read x.slot).isSome) ∧
    (∀ x ∈ cs, read x.1.slot = some x.2) ∧
    r.frame = e.frame ∧ r.bank = bank ∧ (∀ i : Fin 8, tget r.sums i = predictedSum e i.val) ∧
    (r.partialFlag = true ↔ ∃ x ∈ cs, x.1.samples = none) ∧
    (r.suppressed = true ↔ ∃ p, e.snap.slotPart = some p ∧ p.suppression ≠ .clear) ∧
    (r.parked = true ↔ ∃ p, e.snap.slotPart = some p ∧ p.drive = .parked) ∧
    (r.overflow = true ↔ 16 < cs.length) ∧ r.contributors.length = min 16 cs.length ∧
    ∀ (i : Nat) (x : SnapRecord) (c : Coupling), i < 16 → cs[i]? = some (x, c) →
      let at' := fun n : Nat => firstSample e.frame + BitVec.ofNat 32 n -
        BitVec.ofNat 32 c.delay.val
      let index := fun n : Nat => (at' n - x.start).toInt
      let u := fun n : Nat =>
        if 0 ≤ index n ∧ index n < x.length ∧ Before (at' n) x.endPoint then
          ((x.samples.getD []).getD (index n).toNat 0 * x.scale + 2 ^ 14).fdiv (2 ^ 15)
        else 0
      let blank := fun n : Nat => (0 ≤ index n ∧ index n < e.snap.blanking) ∨
        (AtOrAfter (at' n) x.endPoint ∧
          Before (at' n) (x.endPoint + BitVec.ofNat 32 e.snap.blanking))
      ∃ v : Contributor, r.contributors[i]? = some v ∧ v.number = x.number ∧ v.source = x.slot ∧
        v.x = (u 0 + u 1 + u 2 + u 3 + u 4 + u 5 + u 6 + u 7).tdiv 8 ∧
        (v.blanked = true ↔ ∃ n < 8, blank n)

/-- The finishing of a slot's block (R82, R83, R84): each value is the sum plus the ambient term,
clipped to ± the limit, with CLIPPED where the clip changed one; a suppressed or PARKED slot's
values are zeros, SUPPRESSED alone where both hold, and never CLIPPED. So every value lies within ±
the limit, and all are zero under SUPPRESSED or PARKED (R85). The ambient term is the sum over the
taps of w × y2 ÷ 2^14, rounded to nearest, halves up, for a station that the snapshot shows LOCKED
with no shock hold running, and 0 for any other (R82). -/
def Obligations.SlotBlocksAreClippedOrZeroed : Prop :=
  ∀ (p : SlotSnap) (sums : Vector Int 8) (part : Bool), 1 ≤ p.limit →
    let b := slotBlock p sums part
    ambient p = (p.taps.map fun x => if x.locked = true ∧ x.shockRunning = false then
      (x.weight * x.y2 + 2 ^ 13).fdiv (2 ^ 14) else 0).sum ∧
    b.absent = false ∧ b.partialFlag = part ∧
    (b.suppressed = true ↔ p.suppression ≠ .clear) ∧
    (b.parked = true ↔ p.suppression = .clear ∧ p.drive = .parked) ∧
    (∀ i : Fin 8, (tget b.values i).natAbs ≤ p.limit) ∧
    (b.suppressed = true ∨ b.parked = true →
      b.clipped = false ∧ ∀ i : Fin 8, tget b.values i = 0) ∧
    (p.suppression = .clear → p.drive ≠ .parked →
      (∀ i : Fin 8, tget b.values i =
        max (-(p.limit : Int)) (min p.limit (tget sums i + ambient p))) ∧
      (b.clipped = true ↔ ∃ i : Fin 8, (p.limit : Int) < (tget sums i + ambient p).natAbs))

/-! ### Adaptation -/

/-- A gain update at its grant (R66, R106): an update whose bank is not active is dropped and one
whose entry is gone is skipped, with nothing written; otherwise the gain moves by μ and stops at the
bound, and nothing else of the store changes. A step with updates left goes on with its clipped
mark; the last one ends it. The end of a step whose clipped mark is set is a divergence event (R109
to R111): outside a hold it raises the count and starts the hold, and the third freezes the target,
latches FROZEN and cuts off its later steps; inside a hold it restarts the hold. DIVERGENCE is
latched. Where a prediction read waits, or no update does, nothing is granted (R64); that an update
may be granted right after a read though more are to be made, and the marks `gap` of whose access
came last, are the model's reading (assumption 16), and so is that the moment whose steps are being
taken stays open (assumption 12). -/
def Obligations.GainUpdatesStepAndClippedStepsDiverge : Prop :=
  (∀ (s : State) (st : Step) (rest : List Step) (u : GainUpdate) (more : List GainUpdate),
     Ready s → (s.prediction.gap = true ∨ ∀ e ∈ s.prediction.evaluations, e.waiting = []) →
     s.adaptation.steps = st :: rest → st.updates = u :: more →
     let list := tget (s.store.bank st.bank).lists u.source
     let entry := list.find? fun x => decide (x.target = st.target)
     ∃ (t : State) (mark : Bool), exec .gainUpdate s = .next t ∧
       (st.bank ≠ s.store.active ∨ entry = none → t.store = s.store ∧ mark = false) ∧
       (∀ x, st.bank = s.store.active → entry = some x →
         let free := if u.up then x.gain + u.mu else x.gain - u.mu
         let gain := max (-(u.gmax : Int)) (min u.gmax free)
         (mark = true ↔ gain ≠ free) ∧
         tget (t.store.bank st.bank).lists u.source =
           list.map (fun y => if y.target = st.target then { y with gain := gain } else y) ∧
         (∀ y : Slot, y ≠ u.source →
           tget (t.store.bank st.bank).lists y = tget (s.store.bank st.bank).lists y) ∧
         (t.store.bank st.bank).pool = (s.store.bank st.bank).pool ∧
         t.store.bank st.bank.other = s.store.bank st.bank.other ∧
         t.store.active = s.store.active ∧ t.store.swapPending = s.store.swapPending) ∧
       (more ≠ [] → t.adaptation = { s.adaptation with
         steps := { st with updates := more, clipped := st.clipped || mark } :: rest
         openMoment := t.adaptation.openMoment
         gap := true } ∧ t.port = s.port) ∧
       (more = [] → (st.clipped || mark) = false →
         t.adaptation = { s.adaptation with
           steps := rest, openMoment := t.adaptation.openMoment, gap := decide (rest ≠ []) } ∧
         t.port = s.port) ∧
       t.adaptation.openMoment.map (·.moment) = s.adaptation.openMoment.map (·.moment) ∧
       t = { s with
         store := t.store, adaptation := t.adaptation, port := t.port
         prediction := { s.prediction with gap := false } }) ∧
  ((∀ (s : State) (st : Step) (rest : List Step) (u : GainUpdate), Ready s →
     (s.prediction.gap = true ∨ ∀ e ∈ s.prediction.evaluations, e.waiting = []) →
     s.adaptation.steps = st :: rest → st.updates = [u] →
     (st.clipped = true ∨ (st.bank = s.store.active ∧
       ∃ x ∈ (tget (s.store.bank st.bank).lists u.source).find?
           (fun x => decide (x.target = st.target)),
         u.gmax < (if u.up then x.gain + u.mu else x.gain - u.mu).natAbs)) →
     let a := getAdapt st.target s
     let d := s.settings.global.divergenceHold
     ∃ t : State, exec .gainUpdate s = .next t ∧
       (∀ x : Target, x ≠ st.target → getAdapt x t = getAdapt x s) ∧
       (0 < a.hold → getAdapt st.target t = { a with hold := d, postscaler := 0 } ∧
         t.adaptation.steps = rest ∧ t.port = (latch .divergence s).port) ∧
       (a.hold = 0 → a.divergence < 2 →
         getAdapt st.target t =
           { a with divergence := a.divergence + 1, hold := d, postscaler := 0 } ∧
         t.adaptation.steps = rest ∧ t.port = (latch .divergence s).port) ∧
       (a.hold = 0 → 2 ≤ a.divergence →
         getAdapt st.target t =
           { a with divergence := 3, hold := d, postscaler := 0, frozen := true } ∧
         t.adaptation.steps = rest.filter (fun x => decide (x.target ≠ st.target)) ∧
         t.port = (latch .frozen (latch .divergence s)).port)) ∧
   ∀ s : State, Ready s →
     (s.adaptation.steps = [] ∨
       (s.prediction.gap = false ∧ ∃ e ∈ s.prediction.evaluations, e.waiting ≠ [])) →
     exec .gainUpdate s = .next s)

/-! ### Sensing stations -/

/-- A channel word acts on the pairing state of the station its tag names by R119's table, and on
nothing else; tags 32 to 63 are ignored (R118). A sweep is judged whole (R122): one stamped after
now is discarded without a flag, one stamped before the first sample of the frame before is
discarded as late with SENSOR-LATE; any other joins the taken set of each station's account of
its frame, and a station whose account already holds its period is left as it was. In every case
all pairing states are then absent (R119). -/
def Obligations.WordsPairAndSweepsAreJudgedByTheirStamp : Prop :=
  (∀ (s : State) (tag : BitVec 6) (v : Half), Ready s →
     (∀ k : Station, tag.toNat = 2 * k.val →
       exec (.channelWord tag v) s =
         .next (modStation k (fun st => { st with pendingA := some v.toInt }) s)) ∧
     (∀ (k : Station) (a : Int), tag.toNat = 2 * k.val + 1 → (getStation k s).pendingA = some a →
       exec (.channelWord tag v) s =
         .next (modStation k
           (fun st => { st with pendingA := none, pair := some (a, v.toInt) }) s)) ∧
     (∀ k : Station, tag.toNat = 2 * k.val + 1 → (getStation k s).pendingA = none →
       exec (.channelWord tag v) s = .next s) ∧
     (32 ≤ tag.toNat → exec (.channelWord tag v) s = .next s)) ∧
  (∀ (s : State) (stamp : Half), Ready s → s.boundary = .quiet →
     let time := readStamp s.now stamp
     let cleared := fun x : State => { x with
       stations := x.stations.map fun st => { st with pendingA := none, pair := none } }
     (After time s.now → exec (.sweepEnd stamp) s = .next (cleared s)) ∧
     (¬ After time s.now → Before time (firstSample (frameOf s.now - 1)) →
       exec (.sweepEnd stamp) s = .next (cleared (latch .sensorLate s))) ∧
     (¬ After time s.now → ¬ Before time (firstSample (frameOf s.now - 1)) →
       ∃ t : State, exec (.sweepEnd stamp) s = .next t ∧ t.now = s.now ∧ t.table = s.table ∧
         t.cache = s.cache ∧ t.store = s.store ∧ t.prediction = s.prediction ∧
         t.links = s.links ∧ t.settings = s.settings ∧
         t.adaptation.steps = s.adaptation.steps ∧
         t.port = { s.port with latched := t.port.latched } ∧
         ∀ k : Station, (getStation k t).pendingA = none ∧ (getStation k t).pair = none ∧
           ∀ a, (getStation k s).account (frameOf time) = some a →
             (tget a.taken (periodOf time) = true →
               getStation k t = { getStation k s with pendingA := none, pair := none }) ∧
             (tget a.taken (periodOf time) = false →
               ∃ b, (getStation k t).account (frameOf time) = some b ∧
                 b.taken = tset a.taken (periodOf time) true)))

/-- A valid sample taken for a station whose ring holds the record of its frame (R123 to R128): the
last M is the scaled value, the residual M − P clipped to ± 32767 joins the account, and the filter
takes its step where the station is LOCKED with no hold running. A shock sample (R125, R132, R142,
R143): a valid pair whose clipped sum reaches the threshold, or a pair with an overrange code, sets
the station's shock hold to H, latches SHOCK where a slot watches the station, and brings every slot
that names the station to HELD with H and no clear request; the residual of a valid shock sample
joins the account and steps no filter (R123, R127). An invalid sample (R123), without a pair or with
a status code in it, forms no residual and counts against lock (R128, R130): the last M stands
without a pair, and takes a code as 0 with one (R120, R124). A valid sample of a frame that the ring
does not hold sets the last M, joins the taken set and counts for lock, and forms no residual and
steps no filter (R123). -/
def Obligations.SamplesFormResidualsOrShocks : Prop :=
  (∀ (s : State) (stamp : Half) (k : Station) (x y : Int) (a : Account) (rec : EvalRecord),
     Ready s → s.boundary = .quiet →
     let time := readStamp s.now stamp
     ¬ After time s.now → ¬ Before time (firstSample (frameOf s.now - 1)) →
     (getStation k s).pair = some (x, y) → x.natAbs < 32000 → y.natAbs < 32000 →
     (getStation k s).account (frameOf time) = some a → tget a.taken (periodOf time) = false →
     (getRing (stationTarget k) s).find? (fun r => decide (r.frame = frameOf time)) = some rec →
     let g := stationSettings k s
     let clip16 := fun v : Int => max (-32767) (min 32767 v)
     (clip16 (x + y)).natAbs < g.threshold →
     let rot := clip16 (match g.sense with
       | .normal => x - y
       | .reversed => y - x)
     let scaled := clip16 ((rot * g.scale + 8192).fdiv 16384)
     let res := clip16 (scaled - tget rec.sums (periodOf time))
     let c : Int := g.coefficient + 3
     let y1 := (getStation k s).y1 + ((res - (getStation k s).y1) * c + 8).fdiv 16
     let y2 := (getStation k s).y2 + ((y1 - (getStation k s).y2) * c + 8).fdiv 16
     ∃ t : State, exec (.sweepEnd stamp) s = .next t ∧ (getStation k t).lastM = scaled ∧
       (∃ b, (getStation k t).account (frameOf time) = some b ∧ b.sum = a.sum + res ∧
         b.count = a.count + 1) ∧
       (getStation k t).shockHold = (getStation k s).shockHold ∧
       ((getStation k s).effective = .locked → (getStation k s).shockHold = 0 →
         (getStation k t).y1 = y1 ∧ (getStation k t).y2 = y2) ∧
       ((getStation k s).effective = .unlocked ∨ 0 < (getStation k s).shockHold →
         (getStation k t).y1 = (getStation k s).y1 ∧ (getStation k t).y2 = (getStation k s).y2) ∧
       ((getStation k s).detected = .locked →
         (getStation k t).detected = .locked ∧ (getStation k t).badRun = 0) ∧
       ((getStation k s).detected = .unlocked →
         s.settings.global.stationLock ≤ (getStation k s).goodRun + 1 →
         (getStation k t).detected = .locked ∧ (getStation k t).goodRun = 0) ∧
       ((getStation k s).detected = .unlocked →
         (getStation k s).goodRun + 1 < s.settings.global.stationLock →
         (getStation k t).detected = .unlocked ∧
           (getStation k t).goodRun = (getStation k s).goodRun + 1)) ∧
  (∀ (s : State) (stamp : Half) (k : Station) (x y : Int) (a : Account),
     Ready s → s.boundary = .quiet →
     let time := readStamp s.now stamp
     ¬ After time s.now → ¬ Before time (firstSample (frameOf s.now - 1)) →
     (getStation k s).pair = some (x, y) →
     (getStation k s).account (frameOf time) = some a → tget a.taken (periodOf time) = false →
     ((x.natAbs < 32000 ∧ y.natAbs < 32000 ∧
         ((stationSettings k s).threshold : Int) ≤
           min 32767 (max (x + y) (-(x + y)))) ∨
       x = 32767 ∨ x = -32768 ∨ y = 32767 ∨ y = -32768) →
     ∃ t : State, exec (.sweepEnd stamp) s = .next t ∧
       (getStation k t).shockHold = s.settings.global.shockHold ∧
       ∀ slot : Slot, (tget s.settings.slots slot).shockStation = some k →
         getSuppression slot t = { getSuppression slot s with
           state := .held, hold := s.settings.global.shockHold, clearRequested := false } ∧
         t.port.latched &&& Flag.shock.bit = Flag.shock.bit) ∧
  (∀ (s : State) (stamp : Half) (k : Station) (x y : Int) (a : Account) (rec : EvalRecord),
     Ready s → s.boundary = .quiet → 1 ≤ s.settings.global.shockHold →
     let time := readStamp s.now stamp
     ¬ After time s.now → ¬ Before time (firstSample (frameOf s.now - 1)) →
     (getStation k s).pair = some (x, y) → x.natAbs < 32000 → y.natAbs < 32000 →
     ((stationSettings k s).threshold : Int) ≤ min 32767 (max (x + y) (-(x + y))) →
     (getStation k s).account (frameOf time) = some a → tget a.taken (periodOf time) = false →
     (getRing (stationTarget k) s).find? (fun r => decide (r.frame = frameOf time)) = some rec →
     let clip16 := fun v : Int => max (-32767) (min 32767 v)
     let rot := clip16 (match (stationSettings k s).sense with
       | .normal => x - y
       | .reversed => y - x)
     let scaled := clip16 ((rot * (stationSettings k s).scale + 8192).fdiv 16384)
     ∃ t : State, exec (.sweepEnd stamp) s = .next t ∧ (getStation k t).lastM = scaled ∧
       (∃ b, (getStation k t).account (frameOf time) = some b ∧
         b.sum = a.sum + clip16 (scaled - tget rec.sums (periodOf time)) ∧ b.count = a.count + 1) ∧
       (getStation k t).y1 = (getStation k s).y1 ∧ (getStation k t).y2 = (getStation k s).y2) ∧
  (∀ (s : State) (stamp : Half) (k : Station) (x y : Int) (a : Account), Ready s →
     s.boundary = .quiet →
     let time := readStamp s.now stamp
     ¬ After time s.now → ¬ Before time (firstSample (frameOf s.now - 1)) →
     (getStation k s).pair = some (x, y) → x.natAbs < 32000 → y.natAbs < 32000 →
     (getStation k s).account (frameOf time) = some a → tget a.taken (periodOf time) = false →
     (∀ r ∈ getRing (stationTarget k) s, r.frame ≠ frameOf time) →
     let clip16 := fun v : Int => max (-32767) (min 32767 v)
     let rot := clip16 (match (stationSettings k s).sense with
       | .normal => x - y
       | .reversed => y - x)
     let lock := s.settings.global.stationLock
     ∃ t : State, exec (.sweepEnd stamp) s = .next t ∧
       (getStation k t).lastM = clip16 ((rot * (stationSettings k s).scale + 8192).fdiv 16384) ∧
       (getStation k t).account (frameOf time) =
         some { a with taken := tset a.taken (periodOf time) true } ∧
       (getStation k t).y1 = (getStation k s).y1 ∧ (getStation k t).y2 = (getStation k s).y2 ∧
       ((getStation k s).detected = .locked →
         (getStation k t).detected = .locked ∧ (getStation k t).badRun = 0) ∧
       ((getStation k s).detected = .unlocked → lock ≤ (getStation k s).goodRun + 1 →
         (getStation k t).detected = .locked ∧ (getStation k t).goodRun = 0) ∧
       ((getStation k s).detected = .unlocked → (getStation k s).goodRun + 1 < lock →
         (getStation k t).detected = .unlocked ∧
           (getStation k t).goodRun = (getStation k s).goodRun + 1)) ∧
  ∀ (s : State) (stamp : Half) (k : Station) (a : Account), Ready s → s.boundary = .quiet →
    let time := readStamp s.now stamp
    ¬ After time s.now → ¬ Before time (firstSample (frameOf s.now - 1)) →
    (∀ x y, (getStation k s).pair = some (x, y) → 32000 ≤ x.natAbs ∨ 32000 ≤ y.natAbs) →
    (getStation k s).account (frameOf time) = some a → tget a.taken (periodOf time) = false →
    let unlock := s.settings.global.stationUnlock
    let clip16 := fun v : Int => max (-32767) (min 32767 v)
    let value := fun v : Int => if 32000 ≤ v.natAbs then 0 else v
    ∃ t : State, exec (.sweepEnd stamp) s = .next t ∧
      (getStation k t).lastM = (match (getStation k s).pair with
        | none => (getStation k s).lastM
        | some (x, y) => clip16 ((clip16 (match (stationSettings k s).sense with
            | .normal => value x - value y
            | .reversed => value y - value x) * (stationSettings k s).scale + 8192).fdiv 16384)) ∧
      ((getStation k s).detected = .unlocked →
        (getStation k t).detected = .unlocked ∧ (getStation k t).goodRun = 0) ∧
      ((getStation k s).detected = .locked → (getStation k s).badRun + 1 < unlock →
        (getStation k t).detected = .locked ∧
          (getStation k t).badRun = (getStation k s).badRun + 1) ∧
      ((getStation k s).detected = .unlocked ∨ (getStation k s).badRun + 1 < unlock →
        (getStation k t).y1 = (getStation k s).y1 ∧ (getStation k t).y2 = (getStation k s).y2 ∧
        ∃ b, (getStation k t).account (frameOf time) = some b ∧ b.sum = a.sum ∧
          b.count = a.count) ∧
      ((getStation k s).detected = .locked → unlock ≤ (getStation k s).badRun + 1 →
        (getStation k t).detected = .unlocked ∧ (getStation k t).goodRun = 0 ∧
        (getStation k t).badRun = 0 ∧
        ((getStation k s).force = none → (getStation k t).y1 = 0 ∧ (getStation k t).y2 = 0 ∧
          (∃ b, (getStation k t).account (frameOf time) = some b ∧ b.sum = 0 ∧ b.count = 0) ∧
          t.port.latched &&& Flag.lockChange.bit = Flag.lockChange.bit))

/-- FORCE-LOCK sets or clears the force (R129), and a change of the effective state takes the entry
actions of R130: to UNLOCKED the filter and the residuals of both accounts are zeroed, to LOCKED the
station's target settles anew, and either latches LOCK-CHANGE. A station above 15 or an unknown mode
is answered BAD-ARGUMENT. -/
def Obligations.ForceLockSetsTheForceAndItsEntryActions : Prop :=
  ∀ (a : ForceArgs) (s : State), TakesFrames s →
    (15 < a.index.toNat ∨ 2 < a.mode.toNat →
      exec (.forceLock (.fields a)) s = .next (replied (bare .badArgument) s)) ∧
    ∀ k : Station, a.index.toNat = k.val → a.mode.toNat ≤ 2 →
      let force := if a.mode = 0 then some Lock.locked else if a.mode = 1 then some Lock.unlocked
        else none
      let after := force.getD (getStation k s).detected
      (after = (getStation k s).effective → exec (.forceLock (.fields a)) s =
        .next (replied okResponse (modStation k (fun st => { st with force := force }) s))) ∧
      (after = .unlocked → (getStation k s).effective = .locked →
        exec (.forceLock (.fields a)) s = .next (replied okResponse (latch .lockChange
          (modStation k (fun st => { st with
            force := force, y1 := 0, y2 := 0
            older := { st.older with sum := 0, count := 0 }
            newer := { st.newer with sum := 0, count := 0 } }) s)))) ∧
      (after = .locked → (getStation k s).effective = .unlocked →
        exec (.forceLock (.fields a)) s = .next (replied okResponse (latch .lockChange
          (modAdapt (stationTarget k) (fun r => { r with settle := s.settings.global.settle })
            (modStation k (fun st => { st with force := force }) s)))))

/-! ### Shock suppression -/

/-- SUPPRESS-CLEAR (R145) and HOLD-SHORTEN of one slot (R146) by the slot's state, and their
responses of state, hold, clear request and mode; a slot above 95 is answered BAD-ARGUMENT.
HOLD-SHORTEN of all slots (R146): every HELD slot's hold becomes the lesser of itself and 10, the
others stand, and the response counts the holds lowered and the slots in AWAITING-CLEAR. -/
def Obligations.SuppressionCommandsActByTheSlotsState : Prop :=
  (∀ (b : Byte) (s : State), TakesFrames s →
     (95 < b.toNat → exec (.suppressClear (.fields b)) s = .next (replied (bare .badArgument) s) ∧
       (b ≠ 0xFF → exec (.holdShorten (.fields b)) s = .next (replied (bare .badArgument) s))) ∧
     ∀ slot : Slot, b.toNat = slot.val →
       let r := getSuppression slot s
       let mode := (tget s.settings.slots slot).mode
       let cleared : SuppressionRecord :=
         if r.state = .awaitingClear then { r with state := .clear }
         else if r.state = .held then { r with clearRequested := true } else r
       let shortened : SuppressionRecord :=
         if r.state = .held then { r with hold := min r.hold 10 } else r
       exec (.suppressClear (.fields b)) s = .next
         (replied (okWith (.suppression cleared.state cleared.hold cleared.clearRequested mode))
           { s with suppression := tset s.suppression slot cleared }) ∧
       exec (.holdShorten (.fields b)) s = .next
         (replied
           (okWith (.suppression shortened.state shortened.hold shortened.clearRequested mode))
           { s with suppression := tset s.suppression slot shortened })) ∧
  (∀ s : State, TakesFrames s →
     ∃ t : State, exec (.holdShorten (.fields 0xFF)) s = .next t ∧
       (∀ slot : Slot, getSuppression slot t =
         if (getSuppression slot s).state = .held then
           { getSuppression slot s with hold := min (getSuppression slot s).hold 10 }
         else getSuppression slot s) ∧
       t.port.held = okWith (.shortened
         ((List.finRange 96).countP fun slot : Slot =>
           decide ((getSuppression slot s).state = .held ∧ 10 < (getSuppression slot s).hold))
         ((List.finRange 96).countP fun slot : Slot =>
           decide ((getSuppression slot s).state = .awaitingClear))) ∧
       t = replied t.port.held { s with suppression := t.suppression })

/-! ### The management port -/

/-- A frame is refused without effect when its transaction began while a command was in execution; a
payload of the wrong length is answered BAD-ARGUMENT and an unknown code UNKNOWN-COMMAND (R165); a
transaction's start fixes what it clocks out and whether its frame will be refused (R164). The frame
of a transaction that a cold reset cut off, or that began while one was held, is not taken either
(R172). A frame with no TRANSACTION-START before it is refused while a command is in execution, as
one begun at its own moment: that is the model's reading (assumption 6). -/
def Obligations.TransactionsAndFramesAreJudgedByThePort : Prop :=
  (∀ s : State, Ready s → exec .transactionStart s = .next { s with port := { s.port with
    transaction := some (if s.port.executing.isSome then ⟨true, ⟨.busy, .none⟩⟩
      else ⟨false, s.port.held⟩)
    cutOff := false } }) ∧
  (∀ s : State, frameRefused s = true ↔
    ((∃ t, s.port.transaction = some t ∧ t.refused = true) ∨
      (s.port.transaction = none ∧ (s.port.cutOff = true ∨ s.port.executing ≠ none)))) ∧
  (∀ (s : State) (i : Instr), Ready s → frameRefused s = true →
    ((∃ x, encodeFrame i = some x) ∨
      (∃ code : Byte, knownCode code = false ∧ i = .unknownCommand code) ∨
      ∃ code : Byte, knownCode code = true ∧ i = shortFrame code) →
    exec i s = .next { s with port := { s.port with transaction := none, cutOff := false } }) ∧
  ∀ (s : State) (code : Byte), TakesFrames s →
    (knownCode code = true →
      exec (shortFrame code) s = .next (replied (bare .badArgument) s)) ∧
    (knownCode code = false →
      exec (.unknownCommand code) s = .next (replied (bare .unknownCommand) s))

/-- The commands that only read answer OK with what they read, and change nothing but the response:
IDENTIFY (R170), TARGET-READ (R114), STATION-READ (R136) and CACHE-READ (R46). A target above 111
and a station above 15 are answered BAD-ARGUMENT. SOURCE-QUERY reads one record, by number or by
slot and tag, and changes nothing but the response (R27): BAD-ARGUMENT for a number above 127, a
slot above 95 or a tag above 7, NO-SUCH-RECORD where no live record has the tag, the number and the
state of a FREE record, and the fields and E of a live one. That the answer for a FREE record
carries the chassis time too, that the two refusals of SOURCE-QUERY carry no payload, and that the
bytes a form does not use are ignored, are the model's (assumption 9). -/
def Obligations.ReadCommandsAnswerTheStateAsItStands : Prop :=
  (∀ s : State, TakesFrames s →
     exec (.identify (.fields ())) s = .next
       (replied ⟨.ok, .identity 96 [96, 16, 128, 32, 1536] s.now s.port.cause⟩ s) ∧
     (∀ b : Byte, 111 < b.toNat →
       exec (.targetRead (.fields b)) s = .next (replied (bare .badArgument) s)) ∧
     (∀ (b : Byte) (u : Target), b.toNat = u.val →
       exec (.targetRead (.fields b)) s = .next (replied ⟨.ok, .target s.now (getAdapt u s).settle
         (getAdapt u s).postscaler (getAdapt u s).divergence (getAdapt u s).hold
         (getAdapt u s).frozen (getAdapt u s).lastResidual⟩ s)) ∧
     (∀ b : Byte, 15 < b.toNat →
       exec (.stationRead (.fields b)) s = .next (replied (bare .badArgument) s)) ∧
     (∀ (b : Byte) (k : Station), b.toNat = k.val →
       exec (.stationRead (.fields b)) s = .next (replied ⟨.ok, .station s.now
         ((getStation k s).force.getD (getStation k s).detected) (getStation k s).detected
         (getStation k s).force (getStation k s).lastM (getStation k s).y2
         (getStation k s).shockHold (getAdapt (stationTarget k) s).lastResidual⟩ s)) ∧
     ∃ r : CacheReport, exec (.cacheRead (.fields ())) s = .next (replied ⟨.ok, .cache r⟩ s) ∧
       r.time = s.now ∧ r.lru = s.cache.lru ∧ r.queue = s.cache.queue ∧ r.port = s.cache.port ∧
       r.inFlight = s.cache.flight.map (·.id) ∧ r.unusable = s.cache.unusable ∧
       ∀ c : CacheNo, tget r.slots c = match tget s.cache.slots c with
         | .empty => .empty
         | .filling id => .filling id
         | .filled id p n => .filled id p.length n) ∧
  (∀ (a : SourceQueryArgs) (s : State), TakesFrames s → SourceTableLaw s →
     let answers := fun r => exec (.sourceQuery (.fields a)) s = .next (replied r s)
     let live := fun r : RecordNo =>
       okWith (.liveRecord s.now ⟨r, getRecord r s, (getRecord r s).endPoint⟩)
     (1 < a.form.toNat → answers (bare .badArgument)) ∧
     (a.form = 0 → 127 < a.number.toNat → answers (bare .badArgument)) ∧
     (∀ r : RecordNo, a.form = 0 → a.number.toNat = r.val →
       ((getRecord r s).state = .free → answers (okWith (.freeRecord s.now r))) ∧
       ((getRecord r s).state ≠ .free → answers (live r))) ∧
     (a.form = 1 → (95 < a.slot.toNat ∨ 7 < a.tag.toNat) → answers (bare .badArgument)) ∧
     ∀ (slot : Slot) (tag : Tag), a.form = 1 → a.slot.toNat = slot.val → a.tag.toNat = tag.val →
       ((∀ r : RecordNo, ¬ Names r slot tag s) → answers (bare .noSuchRecord)) ∧
       ∀ r : RecordNo, Names r slot tag s → answers (live r))

/-- READ-FLAGS returns each flag that is latched or whose live condition holds (FROZEN while a
target is frozen, SHOCK while a slot is not CLEAR, LEND-GRANTED while the port is LENT) and clears
every latched flag (R168). Each of the twelve flags has the bit of its place in the flag table, bit
0 first, and latching it sets that bit alone (R168, R176). SET-ALERT-MASK stores and answers its
twelve enables (R169); that it ignores the field's bits 12 to 15 is the model's reading (assumption
9). ALERT is asserted exactly while a flag that READ-FLAGS would return as 1 is enabled in the mask
(R169). PMLENT is high exactly while the port is LENT (R48). -/
def Obligations.ReadFlagsReturnsAndClears : Prop :=
  let shown := fun (s : State) (i : Fin 12) => s.port.latched.getLsbD i.val ||
    (i.val == 6 && (List.finRange 112).any fun u : Target => (getAdapt u s).frozen) ||
    (i.val == 7 && (List.finRange 96).any fun slot : Slot =>
      (getSuppression slot s).state != .clear) ||
    (i.val == 11 && s.cache.port == .lent)
  (∀ s : State, TakesFrames s → ∃ bits : BitVec 12,
    exec (.readFlags (.fields ())) s = .next (replied (okWith (.flags bits))
      { s with port := { s.port with latched := 0 } }) ∧
    ∀ i : Fin 12, bits.getLsbD i.val = shown s i) ∧
  (∀ s : State, alertAsserted s = true ↔
    ∃ i : Fin 12, shown s i = true ∧ s.port.mask.getLsbD i.val = true) ∧
  (∀ s : State, pmlentHigh s = true ↔ s.cache.port = .lent) ∧
  (∀ (i : Nat) (f : Flag),
    [Flag.noticeRefused, .noticeLate, .fetchFail, .sensorLate, .swapDone, .divergence, .frozen,
      .shock, .presenceChange, .lockChange, .clipped, .lendGranted][i]? = some f →
    (∀ j : Nat, f.bit.getLsbD j = decide (j = i)) ∧
    ∀ (s : State) (j : Nat),
      (latch f s).port.latched.getLsbD j = (s.port.latched.getLsbD j || decide (j = i))) ∧
  ∀ (s : State) (h : Half), TakesFrames s →
    exec (.setAlertMask (.fields h)) s = .next (replied (okWith (.flags (h.extractLsb' 0 12)))
      { s with port := { s.port with mask := h.extractLsb' 0 12 } })

/-- SETTING-WRITE and SETTING-READ (R167): a record byte that names neither a target nor the global
record, an unknown setting and a setting of a part that the record lacks are answered BAD-ARGUMENT,
and so is a value that is none of a choice's; nothing is stored then. A stored SETTING-WRITE answers
OK with the value that SETTING-READ then answers, and changes no other state (R167): a number is
clipped into its range, a choice is stored as it is. That the bytes which a value's kind or its
choice does not use are ignored is the model's reading (assumption 9). -/
def Obligations.SettingsAreJudgedStoredAndReadBack : Prop :=
  (∀ (a : SettingAddr) (v : SettingValue) (s : State), TakesFrames s →
     ((111 < a.record.toNat ∧ a.record ≠ 0xFF) ∨ 23 < a.name.toNat ∨
       (a.name.toNat < 10 ∧ a.record ≠ 0xFF) ∨ (9 < a.name.toNat ∧ a.record = 0xFF) ∨
       (14 < a.name.toNat ∧ a.name.toNat < 20 ∧ 95 < a.record.toNat) ∨
       (19 < a.name.toNat ∧ a.record.toNat < 96) →
       exec (.settingWrite (.fields (a, v))) s = .next (replied (bare .badArgument) s) ∧
       exec (.settingRead (.fields a)) s = .next (replied (bare .badArgument) s)) ∧
     ((a.record.toNat < 112 ∧ a.name = 10 ∧ 1 < v.value.toNat) ∨
       (95 < a.record.toNat ∧ a.record.toNat < 112 ∧ a.name = 20 ∧ 1 < v.value.toNat) ∨
       (a.record.toNat < 96 ∧ a.name = 18 ∧ 1 < v.value.toNat) ∨
       (a.record.toNat < 96 ∧ (a.name = 16 ∨ a.name = 17 ∨ a.name = 19) ∧
         (1 < v.choice.toNat ∨ (v.choice = 1 ∧ 15 < v.station.toNat))) →
       exec (.settingWrite (.fields (a, v))) s = .next (replied (bare .badArgument) s))) ∧
  ((∀ (a : SettingAddr) (v : SettingValue) (s t : State), TakesFrames s →
     exec (.settingWrite (.fields (a, v))) s = .next t → t.port.held.status = .ok →
     (∃ stored : SettingValue, t.port.held = okWith (.setting stored) ∧
       exec (.settingRead (.fields a)) t = .next (replied (okWith (.setting stored)) t)) ∧
     exec (.settingRead (.fields a)) t = .next t ∧
       t = replied t.port.held { s with settings := t.settings }) ∧
   (∀ s : State, TakesFrames s →
     let answers := fun (record : Byte) (name n : Nat) =>
       exec (.settingRead (.fields ⟨record, BitVec.ofNat 8 name⟩)) s =
         .next (replied (okWith (.setting ⟨0, 0, BitVec.ofNat 16 n⟩)) s)
     (∀ i < 10, answers 0xFF i ((globalNumbers s.settings.global).getD i 0)) ∧
     (∀ (u : Target) (r : Byte), r.toNat = u.val →
       answers r 10 (if (targetSettings u s).enabled then 0 else 1) ∧
       ∀ i < 4, answers r (11 + i) ((targetNumbers (targetSettings u s)).getD i 0)) ∧
     (∀ (slot : Slot) (r : Byte), r.toNat = slot.val →
       answers r 15 (tget s.settings.slots slot).feedLimit ∧
       answers r 18 (if (tget s.settings.slots slot).mode = .latched then 1 else 0) ∧
       let shows := fun (name : Byte) (v : SettingValue) =>
         exec (.settingRead (.fields ⟨r, name⟩)) s = .next (replied (okWith (.setting v)) s)
       let tap := fun t : Option Tap => (match t with
         | none => ⟨0, 0, 0⟩
         | some x => ⟨1, BitVec.ofNat 8 x.station.val, BitVec.ofInt 16 x.weight⟩ : SettingValue)
       shows 16 (tap (tget s.settings.slots slot).tap1) ∧
       shows 17 (tap (tget s.settings.slots slot).tap2) ∧
       shows 19 (match (tget s.settings.slots slot).shockStation with
         | none => ⟨0, 0, 0⟩
         | some k => ⟨1, BitVec.ofNat 8 k.val, 0⟩)) ∧
     ∀ (k : Station) (r : Byte), r.toNat = 96 + k.val →
       answers r 20 (if (stationSettings k s).sense = .reversed then 1 else 0) ∧
       ∀ i < 3, answers r (21 + i) ((stationNumbers (stationSettings k s)).getD i 0)) ∧
   ∀ (v : SettingValue) (s : State), TakesFrames s →
     let n := v.value.toNat
     let number := fun x : Nat => okWith (.setting ⟨0, 0, BitVec.ofNat 16 x⟩)
     (∀ (i : Nat) (low high : Nat), globalRanges[i]? = some (low, high) →
       ∃ t, exec (.settingWrite (.fields (⟨0xFF, BitVec.ofNat 8 i⟩, v))) s = .next t ∧
         globalNumbers t.settings.global =
           (globalNumbers s.settings.global).set i (max low (min high n)) ∧
         t.port.held = number (max low (min high n)) ∧
         t.settings = { s.settings with global := t.settings.global }) ∧
     (∀ (u : Target) (r : Byte) (i low high : Nat), r.toNat = u.val →
       targetRanges[i]? = some (low, high) →
       ∃ t, exec (.settingWrite (.fields (⟨r, BitVec.ofNat 8 (11 + i)⟩, v))) s = .next t ∧
         targetNumbers (targetSettings u t) =
           (targetNumbers (targetSettings u s)).set i (max low (min high n)) ∧
         t.port.held = number (max low (min high n)) ∧
         (targetSettings u t).enabled = (targetSettings u s).enabled ∧
         (∀ x : Target, x ≠ u → targetSettings x t = targetSettings x s) ∧
         t.settings = { s.settings with targets := t.settings.targets }) ∧
     (∀ (k : Station) (r : Byte) (i low high : Nat), r.toNat = 96 + k.val →
       stationRanges[i]? = some (low, high) →
       ∃ t, exec (.settingWrite (.fields (⟨r, BitVec.ofNat 8 (21 + i)⟩, v))) s = .next t ∧
         stationNumbers (stationSettings k t) =
           (stationNumbers (stationSettings k s)).set i (max low (min high n)) ∧
         t.port.held = number (max low (min high n)) ∧
         (stationSettings k t).sense = (stationSettings k s).sense ∧
         (∀ x : Station, x ≠ k → stationSettings x t = stationSettings x s) ∧
         t.settings = { s.settings with stations := t.settings.stations }) ∧
     (∀ (u : Target) (r : Byte), r.toNat = u.val → n ≤ 1 →
       ∃ t, exec (.settingWrite (.fields (⟨r, 10⟩, v))) s = .next t ∧
         t.settings = { s.settings with targets := (tset s.settings.targets u
           { targetSettings u s with enabled := decide (n = 0) }) } ∧
         t.port.held = number n) ∧
     (∀ (k : Station) (r : Byte), r.toNat = 96 + k.val → n ≤ 1 →
       ∃ t, exec (.settingWrite (.fields (⟨r, 20⟩, v))) s = .next t ∧
         t.settings = { s.settings with stations := (tset s.settings.stations k
           { stationSettings k s with sense := if n = 1 then .reversed else .normal }) } ∧
         t.port.held = number n) ∧
     ∀ (slot : Slot) (r : Byte), r.toNat = slot.val →
       let old := tget s.settings.slots slot
       let stores := fun (name : Byte) (new : SlotSettings) (answer : Response) =>
         ∃ t, exec (.settingWrite (.fields (⟨r, name⟩, v))) s = .next t ∧
           t.settings = { s.settings with slots := tset s.settings.slots slot new } ∧
           t.port.held = answer
       let absent := okWith (.setting ⟨0, 0, 0⟩)
       stores 15 { old with feedLimit := max 1 (min 32767 n) } (number (max 1 (min 32767 n))) ∧
       (n ≤ 1 → stores 18 { old with mode := if n = 1 then .latched else .frame } (number n)) ∧
       (v.choice = 0 → stores 16 { old with tap1 := none } absent ∧
         stores 17 { old with tap2 := none } absent ∧
         stores 19 { old with shockStation := none } absent) ∧
       ∀ k : Station, v.choice = 1 → v.station.toNat = k.val →
         let tap := okWith (.setting ⟨1, v.station, v.value⟩)
         stores 16 { old with tap1 := some ⟨k, v.value.toInt⟩ } tap ∧
         stores 17 { old with tap2 := some ⟨k, v.value.toInt⟩ } tap ∧
         stores 19 { old with shockStation := some k } (okWith (.setting ⟨1, v.station, 0⟩)))

/-! ### Resets -/

/-- A cold reset returns every block to its power-up state and sets the cause, at any moment (R171,
R172 and each chapter's reset rule): RESET-LINE and POWER-UP from every state, RESTART-COLD on a
frame that is taken. The queue of commands that wait is not the part's. When a cold reset ends,
chassis time is 0, the BEACON of frame 0 names bank A and the windows of frame 0 follow, with
nothing else changed (R162, R151). With none held there is no such event (the model's choice,
assumption 1). No line holds the reset of RESTART-COLD (R171): any command after it does what it
does once that reset has ended. While RESET is held low or the supply is not stable, a command that
is neither a cold reset nor the end of this one has no effect, but that the port's transactions
begin and end untaken (R162, R171, R172): the frame of one that the reset cut off, or that began
while it was held, is not taken, and not after the reset's end either (R172). That the end of a
reset is a step of its own, that it has come by the next command after RESTART-COLD, and that a held
part lets the other commands pass, are the model's reading (assumption 8). That a RESET-LINE or
POWER-UP which comes while another cause holds the part takes its place, and that one COLD-RESET-END
then ends the hold, are the model's choice (assumption 21). -/
def Obligations.ColdResetsReturnEveryBlockToPowerUp : Prop :=
  ((∀ s : State, 
     let cutOff := s.port.transaction.isSome || s.port.cutOff
     exec .powerUp s = .next (State.cold .powerUp cutOff s.pending) ∧
     exec .resetLine s = .next (State.cold .resetLine cutOff s.pending)) ∧
   (∀ s : State, TakesFrames s →
     exec (.restartCold (.fields ())) s = .next (State.cold .restartCold false s.pending)) ∧
   ∀ (cause : ResetCause) (cutOff : Bool) (q : List Instr),
     let t := State.cold cause cutOff q
     t.port.transaction = none ∧ frameRefused t = cutOff ∧
     t.now = 0 ∧ t.port.cause = cause ∧ t.port.held = ⟨.ok, .none⟩ ∧ t.port.executing = none ∧
     t.port.latched = 0 ∧ t.port.mask = 0 ∧
     (∀ r : RecordNo, (getRecord r t).state = .free) ∧ (∀ x : Slot, getLive x t = 0) ∧
     (∀ c : CacheNo, tget t.cache.slots c = .empty) ∧ t.cache.lru = [] ∧ t.cache.queue = [] ∧
     (∀ id : ProfileId, unusable id t = false) ∧ t.cache.flight = none ∧ t.cache.port = .owned ∧
     portSelect t = some true ∧ memoryClock t = .low ∧ pmlentHigh t = false ∧
     (∀ (n : BankName) (x : Slot), tget (t.store.bank n).lists x = [] ∧ (t.store.bank n).pool = 0) ∧
     t.store.active = .a ∧ t.store.swapPending = false ∧
     (∀ u : Target, getRing u t = [] ∧ (getAdapt u t).settle = 8 ∧ (getAdapt u t).postscaler = 0 ∧
       (getAdapt u t).divergence = 0 ∧ (getAdapt u t).hold = 0 ∧ (getAdapt u t).frozen = false ∧
       (getAdapt u t).lastResidual = 0) ∧
     t.prediction.evaluations = [] ∧ t.adaptation.steps = [] ∧
     (∀ k : Station, (getStation k t).effective = .unlocked ∧ (getStation k t).y1 = 0 ∧
       (getStation k t).y2 = 0 ∧ (getStation k t).shockHold = 0 ∧ (getStation k t).lastM = 0 ∧
       (getStation k t).detected = .unlocked ∧ (getStation k t).force = none ∧
       (getStation k t).goodRun = 0 ∧ (getStation k t).badRun = 0 ∧
       (getStation k t).pendingA = none ∧ (getStation k t).pair = none ∧
       (getStation k t).older =
         ⟨(0 : Frame) - 1, Vector.replicate 8 false, 0, 0, false⟩ ∧
       (getStation k t).newer = ⟨(0 : Frame), Vector.replicate 8 false, 0, 0, false⟩) ∧
     (∀ x : Slot, (getSuppression x t).state = .clear ∧ (getSuppression x t).hold = 0 ∧
       (getSuppression x t).clearRequested = false ∧
       (getLink x t).effective = .absent ∧ (getLink x t).drive = .idle ∧
       (getLink x t).detected = .absent ∧ (getLink x t).force = none ∧
       (getLink x t).goodRun = 0 ∧ (getLink x t).missRun = 0 ∧
       (tget t.settings.slots x).feedLimit = 8192 ∧ (tget t.settings.slots x).tap1 = none ∧
       (tget t.settings.slots x).tap2 = none ∧
       (tget t.settings.slots x).mode = .frame ∧ (tget t.settings.slots x).shockStation = none) ∧
     t.settings.global = ⟨3, 32, 8, 250, 8, 3, 25, 4, 3, 2⟩ ∧
     (∀ u : Target, targetSettings u t = ⟨true, 16, 8, 24576, 4⟩) ∧
     ∀ k : Station, stationSettings k t = ⟨.normal, 16384, 16000, 1⟩) ∧
  ((∀ (cause : ResetCause) (cutOff : Bool) (q : List Instr), ∃ t : State,
     exec .coldResetEnd (State.cold cause cutOff q) = .next t ∧ t.now = 0 ∧
       frameRefused t = cutOff ∧
       t.links.beacon = some ⟨0, .a⟩ ∧
       (∀ slot : Slot, (getLink slot t).window = .upstream none ∧
         (getLink slot t).effective = .absent ∧ (getLink slot t).drive = .idle) ∧
       t = { State.cold cause cutOff q with coldReset := none, links := t.links }) ∧
   (∀ s : State, Running s → exec .coldResetEnd s = .next s) ∧
   ∀ (c : Instr) (cutOff : Bool) (q : List Instr), ∃ t : State,
     exec .coldResetEnd (State.cold .restartCold cutOff q) = .next t ∧
     exec c (State.cold .restartCold cutOff q) = exec c t) ∧
  (∀ (c : Instr) (s : State),
     (s.coldReset = some .resetLine ∨ s.coldReset = some .powerUp) →
     c ≠ .resetLine → c ≠ .powerUp → c ≠ .coldResetEnd →
     let frame := (∃ x, encodeFrame c = some x) ∨
       (∃ code : Byte, knownCode code = false ∧ c = .unknownCommand code) ∨
       ∃ code : Byte, knownCode code = true ∧ c = shortFrame code
     (frame → exec c s = .next { s with port := { s.port with
         transaction := none, cutOff := false } }) ∧
     (c = .transactionStart →
       exec c s = .next { s with port := { s.port with cutOff := true } }) ∧
     ((∃ slot, c.windowOf = some slot) ∨ c = .chassisTimeAdvance ∨ c = .warmLine →
       exec c s = .next s) ∧
     ∃ t : State, exec c s = .next t ∧ t = { s with port := { s.port with
       transaction := t.port.transaction, cutOff := t.port.cutOff } })

/-- A warm reset, from WRST or from RESTART WARM, on a state with no boundary still to be taken
(R171, R172 and each chapter's warm-reset rule): what it keeps, what it clears, and the held
response. Both banks stand, those of a CAPTURE abandoned before its first grant too (the model's
choice, assumption 17). A transaction in progress runs on, and its frame is no longer refused
(R172), also where a command was in execution at its start (the model's reading against R165,
assumption 14). -/
def Obligations.WarmResetsKeepModelAndPresence : Prop :=
  ∀ (s : State) (c : Instr), s.boundary = .quiet →
    (c = .warmLine ∧ Ready s ∨ c = .restartWarm (.fields ()) ∧ TakesFrames s) →
    ∃ t : State, exec c s = .next t ∧
    t.now = s.now ∧ t.settings = s.settings ∧
    t.store = { s.store with swapPending := false } ∧
    (∀ r : RecordNo, (getRecord r t).state = .free) ∧ (∀ x : Slot, getLive x t = 0) ∧
    (∀ n : CacheNo, tget t.cache.slots n = match tget s.cache.slots n with
      | .filled id p _ => .filled id p 0
      | _ => .empty) ∧
    t.cache.lru = s.cache.lru ∧ t.cache.queue = [] ∧ t.cache.flight = none ∧
    (∀ id : ProfileId, unusable id t = false) ∧
    t.cache.port = (if s.cache.port = .owned then .owned else .lent) ∧
    t.prediction.evaluations = [] ∧ t.adaptation.steps = [] ∧
    (∀ u : Target, getRing u t = [] ∧
      getAdapt u t =
        { getAdapt u s with settle := s.settings.global.settle, postscaler := 0, hold := 0 }) ∧
    (∀ k : Station, getStation k t = { getStation k s with
      pendingA := none, pair := none, y1 := 0, y2 := 0, shockHold := 0
      older := freshAccount (frameOf s.now - 1) false
      newer := freshAccount (frameOf s.now) false }) ∧
    (∀ x : Slot, (getSuppression x t).state = .clear ∧ (getSuppression x t).hold = 0 ∧
      (getSuppression x t).clearRequested = false ∧
      (getLink x t).detected = (getLink x s).detected ∧ (getLink x t).force = (getLink x s).force ∧
      (getLink x t).goodRun = (getLink x s).goodRun ∧
      (getLink x t).missRun = (getLink x s).missRun ∧ (getLink x t).sent = (getLink x s).sent ∧
      (getLink x t).drive = .idle ∧
      (∀ m, (getLink x s).window = .feedPhase m .evaluating → (getLink x t).window =
        .feedPhase m (.ready ⟨Vector.replicate 8 0, false, false, false, false, true⟩)) ∧
      ((∀ m, (getLink x s).window ≠ .feedPhase m .evaluating) →
        (getLink x t).window = (getLink x s).window)) ∧
    (∀ x, s.port.transaction = some x → c = .warmLine →
      t.port.transaction = some { x with refused := false }) ∧
    t.port.latched = 0 ∧ t.port.mask = s.port.mask ∧ t.port.executing = none ∧
    (c = .warmLine → t.port.cause = .warmLine ∧
      t.port.held = (if s.port.executing.isSome then ⟨.busy, .none⟩ else s.port.held)) ∧
    (c ≠ .warmLine → t.port.cause = .restartWarm ∧
      (s.port.executing = none → t.port.held = ⟨.ok, .none⟩))
end

