-- ==== Sys2Proof/Laws/State.lean ====
section
/-! SUPPORT. What each named update of the state leaves: one lemma for each field it does not write,
and one for each record it does not reach, all true by unfolding. A proof cites these and unfolds no
update. -/

namespace Sys2Proof.Machine

variable (s : State)

/-! ### setRecord -/

@[simp] theorem setRecord_now (r : RecordNo) (v : SourceRecord) :
    (setRecord r v s).now = s.now := rfl
@[simp] theorem setRecord_boundary (r : RecordNo) (v : SourceRecord) :
    (setRecord r v s).boundary = s.boundary := rfl
@[simp] theorem setRecord_coldReset (r : RecordNo) (v : SourceRecord) :
    (setRecord r v s).coldReset = s.coldReset := rfl
@[simp] theorem setRecord_table_liveCount (r : RecordNo) (v : SourceRecord) :
    (setRecord r v s).table.liveCount = s.table.liveCount := rfl
@[simp] theorem setRecord_cache (r : RecordNo) (v : SourceRecord) :
    (setRecord r v s).cache = s.cache := rfl
@[simp] theorem setRecord_store (r : RecordNo) (v : SourceRecord) :
    (setRecord r v s).store = s.store := rfl
@[simp] theorem setRecord_prediction (r : RecordNo) (v : SourceRecord) :
    (setRecord r v s).prediction = s.prediction := rfl
@[simp] theorem setRecord_adaptation (r : RecordNo) (v : SourceRecord) :
    (setRecord r v s).adaptation = s.adaptation := rfl
@[simp] theorem setRecord_stations (r : RecordNo) (v : SourceRecord) :
    (setRecord r v s).stations = s.stations := rfl
@[simp] theorem setRecord_suppression (r : RecordNo) (v : SourceRecord) :
    (setRecord r v s).suppression = s.suppression := rfl
@[simp] theorem setRecord_links (r : RecordNo) (v : SourceRecord) :
    (setRecord r v s).links = s.links := rfl
@[simp] theorem setRecord_settings (r : RecordNo) (v : SourceRecord) :
    (setRecord r v s).settings = s.settings := rfl
@[simp] theorem setRecord_port (r : RecordNo) (v : SourceRecord) :
    (setRecord r v s).port = s.port := rfl
@[simp] theorem setRecord_pending (r : RecordNo) (v : SourceRecord) :
    (setRecord r v s).pending = s.pending := rfl
@[simp] theorem getLive_setRecord (r : RecordNo) (v : SourceRecord) (x : Slot) :
    getLive x (setRecord r v s) = getLive x s := rfl
@[simp] theorem getAdapt_setRecord (r : RecordNo) (v : SourceRecord) (u : Target) :
    getAdapt u (setRecord r v s) = getAdapt u s := rfl
@[simp] theorem getStation_setRecord (r : RecordNo) (v : SourceRecord) (j : Station) :
    getStation j (setRecord r v s) = getStation j s := rfl
@[simp] theorem getSuppression_setRecord (r : RecordNo) (v : SourceRecord) (x : Slot) :
    getSuppression x (setRecord r v s) = getSuppression x s := rfl
@[simp] theorem getLink_setRecord (r : RecordNo) (v : SourceRecord) (x : Slot) :
    getLink x (setRecord r v s) = getLink x s := rfl
@[simp] theorem getRing_setRecord (r : RecordNo) (v : SourceRecord) (u : Target) :
    getRing u (setRecord r v s) = getRing u s := rfl
@[simp] theorem targetSettings_setRecord (r : RecordNo) (v : SourceRecord) (u : Target) :
    targetSettings u (setRecord r v s) = targetSettings u s := rfl
@[simp] theorem stationSettings_setRecord (r : RecordNo) (v : SourceRecord) (j : Station) :
    stationSettings j (setRecord r v s) = stationSettings j s := rfl

/-! ### modLive -/

@[simp] theorem modLive_now (slot : Slot) (f : Nat → Nat) : (modLive slot f s).now = s.now := rfl
@[simp] theorem modLive_boundary (slot : Slot) (f : Nat → Nat) :
    (modLive slot f s).boundary = s.boundary := rfl
@[simp] theorem modLive_coldReset (slot : Slot) (f : Nat → Nat) :
    (modLive slot f s).coldReset = s.coldReset := rfl
@[simp] theorem modLive_table_records (slot : Slot) (f : Nat → Nat) :
    (modLive slot f s).table.records = s.table.records := rfl
@[simp] theorem modLive_cache (slot : Slot) (f : Nat → Nat) :
    (modLive slot f s).cache = s.cache := rfl
@[simp] theorem modLive_store (slot : Slot) (f : Nat → Nat) :
    (modLive slot f s).store = s.store := rfl
@[simp] theorem modLive_prediction (slot : Slot) (f : Nat → Nat) :
    (modLive slot f s).prediction = s.prediction := rfl
@[simp] theorem modLive_adaptation (slot : Slot) (f : Nat → Nat) :
    (modLive slot f s).adaptation = s.adaptation := rfl
@[simp] theorem modLive_stations (slot : Slot) (f : Nat → Nat) :
    (modLive slot f s).stations = s.stations := rfl
@[simp] theorem modLive_suppression (slot : Slot) (f : Nat → Nat) :
    (modLive slot f s).suppression = s.suppression := rfl
@[simp] theorem modLive_links (slot : Slot) (f : Nat → Nat) :
    (modLive slot f s).links = s.links := rfl
@[simp] theorem modLive_settings (slot : Slot) (f : Nat → Nat) :
    (modLive slot f s).settings = s.settings := rfl
@[simp] theorem modLive_port (slot : Slot) (f : Nat → Nat) : (modLive slot f s).port = s.port := rfl
@[simp] theorem modLive_pending (slot : Slot) (f : Nat → Nat) :
    (modLive slot f s).pending = s.pending := rfl
@[simp] theorem getRecord_modLive (slot : Slot) (f : Nat → Nat) (n : RecordNo) :
    getRecord n (modLive slot f s) = getRecord n s := rfl
@[simp] theorem getAdapt_modLive (slot : Slot) (f : Nat → Nat) (u : Target) :
    getAdapt u (modLive slot f s) = getAdapt u s := rfl
@[simp] theorem getStation_modLive (slot : Slot) (f : Nat → Nat) (j : Station) :
    getStation j (modLive slot f s) = getStation j s := rfl
@[simp] theorem getSuppression_modLive (slot : Slot) (f : Nat → Nat) (x : Slot) :
    getSuppression x (modLive slot f s) = getSuppression x s := rfl
@[simp] theorem getLink_modLive (slot : Slot) (f : Nat → Nat) (x : Slot) :
    getLink x (modLive slot f s) = getLink x s := rfl
@[simp] theorem getRing_modLive (slot : Slot) (f : Nat → Nat) (u : Target) :
    getRing u (modLive slot f s) = getRing u s := rfl
@[simp] theorem targetSettings_modLive (slot : Slot) (f : Nat → Nat) (u : Target) :
    targetSettings u (modLive slot f s) = targetSettings u s := rfl
@[simp] theorem stationSettings_modLive (slot : Slot) (f : Nat → Nat) (j : Station) :
    stationSettings j (modLive slot f s) = stationSettings j s := rfl

/-! ### modCount -/

@[simp] theorem modCount_now (id : ProfileId) (f : Nat → Nat) : (modCount id f s).now = s.now := rfl
@[simp] theorem modCount_boundary (id : ProfileId) (f : Nat → Nat) :
    (modCount id f s).boundary = s.boundary := rfl
@[simp] theorem modCount_coldReset (id : ProfileId) (f : Nat → Nat) :
    (modCount id f s).coldReset = s.coldReset := rfl
@[simp] theorem modCount_table (id : ProfileId) (f : Nat → Nat) :
    (modCount id f s).table = s.table := rfl
@[simp] theorem modCount_cache_lru (id : ProfileId) (f : Nat → Nat) :
    (modCount id f s).cache.lru = s.cache.lru := rfl
@[simp] theorem modCount_cache_queue (id : ProfileId) (f : Nat → Nat) :
    (modCount id f s).cache.queue = s.cache.queue := rfl
@[simp] theorem modCount_cache_unusable (id : ProfileId) (f : Nat → Nat) :
    (modCount id f s).cache.unusable = s.cache.unusable := rfl
@[simp] theorem modCount_cache_flight (id : ProfileId) (f : Nat → Nat) :
    (modCount id f s).cache.flight = s.cache.flight := rfl
@[simp] theorem modCount_cache_port (id : ProfileId) (f : Nat → Nat) :
    (modCount id f s).cache.port = s.cache.port := rfl
@[simp] theorem modCount_store (id : ProfileId) (f : Nat → Nat) :
    (modCount id f s).store = s.store := rfl
@[simp] theorem modCount_prediction (id : ProfileId) (f : Nat → Nat) :
    (modCount id f s).prediction = s.prediction := rfl
@[simp] theorem modCount_adaptation (id : ProfileId) (f : Nat → Nat) :
    (modCount id f s).adaptation = s.adaptation := rfl
@[simp] theorem modCount_stations (id : ProfileId) (f : Nat → Nat) :
    (modCount id f s).stations = s.stations := rfl
@[simp] theorem modCount_suppression (id : ProfileId) (f : Nat → Nat) :
    (modCount id f s).suppression = s.suppression := rfl
@[simp] theorem modCount_links (id : ProfileId) (f : Nat → Nat) :
    (modCount id f s).links = s.links := rfl
@[simp] theorem modCount_settings (id : ProfileId) (f : Nat → Nat) :
    (modCount id f s).settings = s.settings := rfl
@[simp] theorem modCount_port (id : ProfileId) (f : Nat → Nat) :
    (modCount id f s).port = s.port := rfl
@[simp] theorem modCount_pending (id : ProfileId) (f : Nat → Nat) :
    (modCount id f s).pending = s.pending := rfl
@[simp] theorem getRecord_modCount (id : ProfileId) (f : Nat → Nat) (n : RecordNo) :
    getRecord n (modCount id f s) = getRecord n s := rfl
@[simp] theorem getLive_modCount (id : ProfileId) (f : Nat → Nat) (x : Slot) :
    getLive x (modCount id f s) = getLive x s := rfl
@[simp] theorem getAdapt_modCount (id : ProfileId) (f : Nat → Nat) (u : Target) :
    getAdapt u (modCount id f s) = getAdapt u s := rfl
@[simp] theorem getStation_modCount (id : ProfileId) (f : Nat → Nat) (j : Station) :
    getStation j (modCount id f s) = getStation j s := rfl
@[simp] theorem getSuppression_modCount (id : ProfileId) (f : Nat → Nat) (x : Slot) :
    getSuppression x (modCount id f s) = getSuppression x s := rfl
@[simp] theorem getLink_modCount (id : ProfileId) (f : Nat → Nat) (x : Slot) :
    getLink x (modCount id f s) = getLink x s := rfl
@[simp] theorem getRing_modCount (id : ProfileId) (f : Nat → Nat) (u : Target) :
    getRing u (modCount id f s) = getRing u s := rfl
@[simp] theorem targetSettings_modCount (id : ProfileId) (f : Nat → Nat) (u : Target) :
    targetSettings u (modCount id f s) = targetSettings u s := rfl
@[simp] theorem stationSettings_modCount (id : ProfileId) (f : Nat → Nat) (j : Station) :
    stationSettings j (modCount id f s) = stationSettings j s := rfl

/-! ### setCacheSlot -/

@[simp] theorem setCacheSlot_now (c : CacheNo) (v : CacheSlot) :
    (setCacheSlot c v s).now = s.now := rfl
@[simp] theorem setCacheSlot_boundary (c : CacheNo) (v : CacheSlot) :
    (setCacheSlot c v s).boundary = s.boundary := rfl
@[simp] theorem setCacheSlot_coldReset (c : CacheNo) (v : CacheSlot) :
    (setCacheSlot c v s).coldReset = s.coldReset := rfl
@[simp] theorem setCacheSlot_table (c : CacheNo) (v : CacheSlot) :
    (setCacheSlot c v s).table = s.table := rfl
@[simp] theorem setCacheSlot_cache_lru (c : CacheNo) (v : CacheSlot) :
    (setCacheSlot c v s).cache.lru = s.cache.lru := rfl
@[simp] theorem setCacheSlot_cache_queue (c : CacheNo) (v : CacheSlot) :
    (setCacheSlot c v s).cache.queue = s.cache.queue := rfl
@[simp] theorem setCacheSlot_cache_unusable (c : CacheNo) (v : CacheSlot) :
    (setCacheSlot c v s).cache.unusable = s.cache.unusable := rfl
@[simp] theorem setCacheSlot_cache_flight (c : CacheNo) (v : CacheSlot) :
    (setCacheSlot c v s).cache.flight = s.cache.flight := rfl
@[simp] theorem setCacheSlot_cache_port (c : CacheNo) (v : CacheSlot) :
    (setCacheSlot c v s).cache.port = s.cache.port := rfl
@[simp] theorem setCacheSlot_store (c : CacheNo) (v : CacheSlot) :
    (setCacheSlot c v s).store = s.store := rfl
@[simp] theorem setCacheSlot_prediction (c : CacheNo) (v : CacheSlot) :
    (setCacheSlot c v s).prediction = s.prediction := rfl
@[simp] theorem setCacheSlot_adaptation (c : CacheNo) (v : CacheSlot) :
    (setCacheSlot c v s).adaptation = s.adaptation := rfl
@[simp] theorem setCacheSlot_stations (c : CacheNo) (v : CacheSlot) :
    (setCacheSlot c v s).stations = s.stations := rfl
@[simp] theorem setCacheSlot_suppression (c : CacheNo) (v : CacheSlot) :
    (setCacheSlot c v s).suppression = s.suppression := rfl
@[simp] theorem setCacheSlot_links (c : CacheNo) (v : CacheSlot) :
    (setCacheSlot c v s).links = s.links := rfl
@[simp] theorem setCacheSlot_settings (c : CacheNo) (v : CacheSlot) :
    (setCacheSlot c v s).settings = s.settings := rfl
@[simp] theorem setCacheSlot_port (c : CacheNo) (v : CacheSlot) :
    (setCacheSlot c v s).port = s.port := rfl
@[simp] theorem setCacheSlot_pending (c : CacheNo) (v : CacheSlot) :
    (setCacheSlot c v s).pending = s.pending := rfl
@[simp] theorem getRecord_setCacheSlot (c : CacheNo) (v : CacheSlot) (n : RecordNo) :
    getRecord n (setCacheSlot c v s) = getRecord n s := rfl
@[simp] theorem getLive_setCacheSlot (c : CacheNo) (v : CacheSlot) (x : Slot) :
    getLive x (setCacheSlot c v s) = getLive x s := rfl
@[simp] theorem getAdapt_setCacheSlot (c : CacheNo) (v : CacheSlot) (u : Target) :
    getAdapt u (setCacheSlot c v s) = getAdapt u s := rfl
@[simp] theorem getStation_setCacheSlot (c : CacheNo) (v : CacheSlot) (j : Station) :
    getStation j (setCacheSlot c v s) = getStation j s := rfl
@[simp] theorem getSuppression_setCacheSlot (c : CacheNo) (v : CacheSlot) (x : Slot) :
    getSuppression x (setCacheSlot c v s) = getSuppression x s := rfl
@[simp] theorem getLink_setCacheSlot (c : CacheNo) (v : CacheSlot) (x : Slot) :
    getLink x (setCacheSlot c v s) = getLink x s := rfl
@[simp] theorem getRing_setCacheSlot (c : CacheNo) (v : CacheSlot) (u : Target) :
    getRing u (setCacheSlot c v s) = getRing u s := rfl
@[simp] theorem targetSettings_setCacheSlot (c : CacheNo) (v : CacheSlot) (u : Target) :
    targetSettings u (setCacheSlot c v s) = targetSettings u s := rfl
@[simp] theorem stationSettings_setCacheSlot (c : CacheNo) (v : CacheSlot) (j : Station) :
    stationSettings j (setCacheSlot c v s) = stationSettings j s := rfl

/-! ### modAdapt -/

@[simp] theorem modAdapt_now (t : Target) (f : AdaptRecord → AdaptRecord) :
    (modAdapt t f s).now = s.now := rfl
@[simp] theorem modAdapt_boundary (t : Target) (f : AdaptRecord → AdaptRecord) :
    (modAdapt t f s).boundary = s.boundary := rfl
@[simp] theorem modAdapt_coldReset (t : Target) (f : AdaptRecord → AdaptRecord) :
    (modAdapt t f s).coldReset = s.coldReset := rfl
@[simp] theorem modAdapt_table (t : Target) (f : AdaptRecord → AdaptRecord) :
    (modAdapt t f s).table = s.table := rfl
@[simp] theorem modAdapt_cache (t : Target) (f : AdaptRecord → AdaptRecord) :
    (modAdapt t f s).cache = s.cache := rfl
@[simp] theorem modAdapt_store (t : Target) (f : AdaptRecord → AdaptRecord) :
    (modAdapt t f s).store = s.store := rfl
@[simp] theorem modAdapt_prediction (t : Target) (f : AdaptRecord → AdaptRecord) :
    (modAdapt t f s).prediction = s.prediction := rfl
@[simp] theorem modAdapt_adaptation_steps (t : Target) (f : AdaptRecord → AdaptRecord) :
    (modAdapt t f s).adaptation.steps = s.adaptation.steps := rfl
@[simp] theorem modAdapt_adaptation_openMoment (t : Target) (f : AdaptRecord → AdaptRecord) :
    (modAdapt t f s).adaptation.openMoment = s.adaptation.openMoment := rfl
@[simp] theorem modAdapt_adaptation_gap (t : Target) (f : AdaptRecord → AdaptRecord) :
    (modAdapt t f s).adaptation.gap = s.adaptation.gap := rfl
@[simp] theorem modAdapt_stations (t : Target) (f : AdaptRecord → AdaptRecord) :
    (modAdapt t f s).stations = s.stations := rfl
@[simp] theorem modAdapt_suppression (t : Target) (f : AdaptRecord → AdaptRecord) :
    (modAdapt t f s).suppression = s.suppression := rfl
@[simp] theorem modAdapt_links (t : Target) (f : AdaptRecord → AdaptRecord) :
    (modAdapt t f s).links = s.links := rfl
@[simp] theorem modAdapt_settings (t : Target) (f : AdaptRecord → AdaptRecord) :
    (modAdapt t f s).settings = s.settings := rfl
@[simp] theorem modAdapt_port (t : Target) (f : AdaptRecord → AdaptRecord) :
    (modAdapt t f s).port = s.port := rfl
@[simp] theorem modAdapt_pending (t : Target) (f : AdaptRecord → AdaptRecord) :
    (modAdapt t f s).pending = s.pending := rfl
@[simp] theorem getRecord_modAdapt (t : Target) (f : AdaptRecord → AdaptRecord) (n : RecordNo) :
    getRecord n (modAdapt t f s) = getRecord n s := rfl
@[simp] theorem getLive_modAdapt (t : Target) (f : AdaptRecord → AdaptRecord) (x : Slot) :
    getLive x (modAdapt t f s) = getLive x s := rfl
@[simp] theorem getStation_modAdapt (t : Target) (f : AdaptRecord → AdaptRecord) (j : Station) :
    getStation j (modAdapt t f s) = getStation j s := rfl
@[simp] theorem getSuppression_modAdapt (t : Target) (f : AdaptRecord → AdaptRecord) (x : Slot) :
    getSuppression x (modAdapt t f s) = getSuppression x s := rfl
@[simp] theorem getLink_modAdapt (t : Target) (f : AdaptRecord → AdaptRecord) (x : Slot) :
    getLink x (modAdapt t f s) = getLink x s := rfl
@[simp] theorem getRing_modAdapt (t : Target) (f : AdaptRecord → AdaptRecord) (u : Target) :
    getRing u (modAdapt t f s) = getRing u s := rfl
@[simp] theorem targetSettings_modAdapt (t : Target) (f : AdaptRecord → AdaptRecord) (u : Target) :
    targetSettings u (modAdapt t f s) = targetSettings u s := rfl
@[simp] theorem stationSettings_modAdapt (t : Target) (f : AdaptRecord → AdaptRecord) (j : Station) :
    stationSettings j (modAdapt t f s) = stationSettings j s := rfl

/-! ### modStation -/

@[simp] theorem modStation_now (k : Station) (f : StationState → StationState) :
    (modStation k f s).now = s.now := rfl
@[simp] theorem modStation_boundary (k : Station) (f : StationState → StationState) :
    (modStation k f s).boundary = s.boundary := rfl
@[simp] theorem modStation_coldReset (k : Station) (f : StationState → StationState) :
    (modStation k f s).coldReset = s.coldReset := rfl
@[simp] theorem modStation_table (k : Station) (f : StationState → StationState) :
    (modStation k f s).table = s.table := rfl
@[simp] theorem modStation_cache (k : Station) (f : StationState → StationState) :
    (modStation k f s).cache = s.cache := rfl
@[simp] theorem modStation_store (k : Station) (f : StationState → StationState) :
    (modStation k f s).store = s.store := rfl
@[simp] theorem modStation_prediction (k : Station) (f : StationState → StationState) :
    (modStation k f s).prediction = s.prediction := rfl
@[simp] theorem modStation_adaptation (k : Station) (f : StationState → StationState) :
    (modStation k f s).adaptation = s.adaptation := rfl
@[simp] theorem modStation_suppression (k : Station) (f : StationState → StationState) :
    (modStation k f s).suppression = s.suppression := rfl
@[simp] theorem modStation_links (k : Station) (f : StationState → StationState) :
    (modStation k f s).links = s.links := rfl
@[simp] theorem modStation_settings (k : Station) (f : StationState → StationState) :
    (modStation k f s).settings = s.settings := rfl
@[simp] theorem modStation_port (k : Station) (f : StationState → StationState) :
    (modStation k f s).port = s.port := rfl
@[simp] theorem modStation_pending (k : Station) (f : StationState → StationState) :
    (modStation k f s).pending = s.pending := rfl
@[simp] theorem getRecord_modStation (k : Station) (f : StationState → StationState) (n : RecordNo) :
    getRecord n (modStation k f s) = getRecord n s := rfl
@[simp] theorem getLive_modStation (k : Station) (f : StationState → StationState) (x : Slot) :
    getLive x (modStation k f s) = getLive x s := rfl
@[simp] theorem getAdapt_modStation (k : Station) (f : StationState → StationState) (u : Target) :
    getAdapt u (modStation k f s) = getAdapt u s := rfl
@[simp] theorem getSuppression_modStation (k : Station) (f : StationState → StationState) (x : Slot) :
    getSuppression x (modStation k f s) = getSuppression x s := rfl
@[simp] theorem getLink_modStation (k : Station) (f : StationState → StationState) (x : Slot) :
    getLink x (modStation k f s) = getLink x s := rfl
@[simp] theorem getRing_modStation (k : Station) (f : StationState → StationState) (u : Target) :
    getRing u (modStation k f s) = getRing u s := rfl
@[simp] theorem targetSettings_modStation (k : Station) (f : StationState → StationState) (u : Target) :
    targetSettings u (modStation k f s) = targetSettings u s := rfl
@[simp] theorem stationSettings_modStation (k : Station) (f : StationState → StationState) (j : Station) :
    stationSettings j (modStation k f s) = stationSettings j s := rfl

/-! ### modSuppression -/

@[simp] theorem modSuppression_now (slot : Slot) (f : SuppressionRecord → SuppressionRecord) :
    (modSuppression slot f s).now = s.now := rfl
@[simp] theorem modSuppression_boundary (slot : Slot) (f : SuppressionRecord → SuppressionRecord) :
    (modSuppression slot f s).boundary = s.boundary := rfl
@[simp] theorem modSuppression_coldReset (slot : Slot) (f : SuppressionRecord → SuppressionRecord) :
    (modSuppression slot f s).coldReset = s.coldReset := rfl
@[simp] theorem modSuppression_table (slot : Slot) (f : SuppressionRecord → SuppressionRecord) :
    (modSuppression slot f s).table = s.table := rfl
@[simp] theorem modSuppression_cache (slot : Slot) (f : SuppressionRecord → SuppressionRecord) :
    (modSuppression slot f s).cache = s.cache := rfl
@[simp] theorem modSuppression_store (slot : Slot) (f : SuppressionRecord → SuppressionRecord) :
    (modSuppression slot f s).store = s.store := rfl
@[simp] theorem modSuppression_prediction (slot : Slot) (f : SuppressionRecord → SuppressionRecord) :
    (modSuppression slot f s).prediction = s.prediction := rfl
@[simp] theorem modSuppression_adaptation (slot : Slot) (f : SuppressionRecord → SuppressionRecord) :
    (modSuppression slot f s).adaptation = s.adaptation := rfl
@[simp] theorem modSuppression_stations (slot : Slot) (f : SuppressionRecord → SuppressionRecord) :
    (modSuppression slot f s).stations = s.stations := rfl
@[simp] theorem modSuppression_links (slot : Slot) (f : SuppressionRecord → SuppressionRecord) :
    (modSuppression slot f s).links = s.links := rfl
@[simp] theorem modSuppression_settings (slot : Slot) (f : SuppressionRecord → SuppressionRecord) :
    (modSuppression slot f s).settings = s.settings := rfl
@[simp] theorem modSuppression_port (slot : Slot) (f : SuppressionRecord → SuppressionRecord) :
    (modSuppression slot f s).port = s.port := rfl
@[simp] theorem modSuppression_pending (slot : Slot) (f : SuppressionRecord → SuppressionRecord) :
    (modSuppression slot f s).pending = s.pending := rfl
@[simp] theorem getRecord_modSuppression (slot : Slot) (f : SuppressionRecord → SuppressionRecord) (n : RecordNo) :
    getRecord n (modSuppression slot f s) = getRecord n s := rfl
@[simp] theorem getLive_modSuppression (slot : Slot) (f : SuppressionRecord → SuppressionRecord) (x : Slot) :
    getLive x (modSuppression slot f s) = getLive x s := rfl
@[simp] theorem getAdapt_modSuppression (slot : Slot) (f : SuppressionRecord → SuppressionRecord) (u : Target) :
    getAdapt u (modSuppression slot f s) = getAdapt u s := rfl
@[simp] theorem getStation_modSuppression (slot : Slot) (f : SuppressionRecord → SuppressionRecord) (j : Station) :
    getStation j (modSuppression slot f s) = getStation j s := rfl
@[simp] theorem getLink_modSuppression (slot : Slot) (f : SuppressionRecord → SuppressionRecord) (x : Slot) :
    getLink x (modSuppression slot f s) = getLink x s := rfl
@[simp] theorem getRing_modSuppression (slot : Slot) (f : SuppressionRecord → SuppressionRecord) (u : Target) :
    getRing u (modSuppression slot f s) = getRing u s := rfl
@[simp] theorem targetSettings_modSuppression (slot : Slot) (f : SuppressionRecord → SuppressionRecord) (u : Target) :
    targetSettings u (modSuppression slot f s) = targetSettings u s := rfl
@[simp] theorem stationSettings_modSuppression (slot : Slot) (f : SuppressionRecord → SuppressionRecord) (j : Station) :
    stationSettings j (modSuppression slot f s) = stationSettings j s := rfl

/-! ### modLink -/

@[simp] theorem modLink_now (slot : Slot) (f : LinkSlot → LinkSlot) :
    (modLink slot f s).now = s.now := rfl
@[simp] theorem modLink_boundary (slot : Slot) (f : LinkSlot → LinkSlot) :
    (modLink slot f s).boundary = s.boundary := rfl
@[simp] theorem modLink_coldReset (slot : Slot) (f : LinkSlot → LinkSlot) :
    (modLink slot f s).coldReset = s.coldReset := rfl
@[simp] theorem modLink_table (slot : Slot) (f : LinkSlot → LinkSlot) :
    (modLink slot f s).table = s.table := rfl
@[simp] theorem modLink_cache (slot : Slot) (f : LinkSlot → LinkSlot) :
    (modLink slot f s).cache = s.cache := rfl
@[simp] theorem modLink_store (slot : Slot) (f : LinkSlot → LinkSlot) :
    (modLink slot f s).store = s.store := rfl
@[simp] theorem modLink_prediction (slot : Slot) (f : LinkSlot → LinkSlot) :
    (modLink slot f s).prediction = s.prediction := rfl
@[simp] theorem modLink_adaptation (slot : Slot) (f : LinkSlot → LinkSlot) :
    (modLink slot f s).adaptation = s.adaptation := rfl
@[simp] theorem modLink_stations (slot : Slot) (f : LinkSlot → LinkSlot) :
    (modLink slot f s).stations = s.stations := rfl
@[simp] theorem modLink_suppression (slot : Slot) (f : LinkSlot → LinkSlot) :
    (modLink slot f s).suppression = s.suppression := rfl
@[simp] theorem modLink_links_beacon (slot : Slot) (f : LinkSlot → LinkSlot) :
    (modLink slot f s).links.beacon = s.links.beacon := rfl
@[simp] theorem modLink_settings (slot : Slot) (f : LinkSlot → LinkSlot) :
    (modLink slot f s).settings = s.settings := rfl
@[simp] theorem modLink_port (slot : Slot) (f : LinkSlot → LinkSlot) :
    (modLink slot f s).port = s.port := rfl
@[simp] theorem modLink_pending (slot : Slot) (f : LinkSlot → LinkSlot) :
    (modLink slot f s).pending = s.pending := rfl
@[simp] theorem getRecord_modLink (slot : Slot) (f : LinkSlot → LinkSlot) (n : RecordNo) :
    getRecord n (modLink slot f s) = getRecord n s := rfl
@[simp] theorem getLive_modLink (slot : Slot) (f : LinkSlot → LinkSlot) (x : Slot) :
    getLive x (modLink slot f s) = getLive x s := rfl
@[simp] theorem getAdapt_modLink (slot : Slot) (f : LinkSlot → LinkSlot) (u : Target) :
    getAdapt u (modLink slot f s) = getAdapt u s := rfl
@[simp] theorem getStation_modLink (slot : Slot) (f : LinkSlot → LinkSlot) (j : Station) :
    getStation j (modLink slot f s) = getStation j s := rfl
@[simp] theorem getSuppression_modLink (slot : Slot) (f : LinkSlot → LinkSlot) (x : Slot) :
    getSuppression x (modLink slot f s) = getSuppression x s := rfl
@[simp] theorem getRing_modLink (slot : Slot) (f : LinkSlot → LinkSlot) (u : Target) :
    getRing u (modLink slot f s) = getRing u s := rfl
@[simp] theorem targetSettings_modLink (slot : Slot) (f : LinkSlot → LinkSlot) (u : Target) :
    targetSettings u (modLink slot f s) = targetSettings u s := rfl
@[simp] theorem stationSettings_modLink (slot : Slot) (f : LinkSlot → LinkSlot) (j : Station) :
    stationSettings j (modLink slot f s) = stationSettings j s := rfl

/-! ### setRing -/

@[simp] theorem setRing_now (t : Target) (l : List EvalRecord) : (setRing t l s).now = s.now := rfl
@[simp] theorem setRing_boundary (t : Target) (l : List EvalRecord) :
    (setRing t l s).boundary = s.boundary := rfl
@[simp] theorem setRing_coldReset (t : Target) (l : List EvalRecord) :
    (setRing t l s).coldReset = s.coldReset := rfl
@[simp] theorem setRing_table (t : Target) (l : List EvalRecord) :
    (setRing t l s).table = s.table := rfl
@[simp] theorem setRing_cache (t : Target) (l : List EvalRecord) :
    (setRing t l s).cache = s.cache := rfl
@[simp] theorem setRing_store (t : Target) (l : List EvalRecord) :
    (setRing t l s).store = s.store := rfl
@[simp] theorem setRing_prediction_evaluations (t : Target) (l : List EvalRecord) :
    (setRing t l s).prediction.evaluations = s.prediction.evaluations := rfl
@[simp] theorem setRing_prediction_gap (t : Target) (l : List EvalRecord) :
    (setRing t l s).prediction.gap = s.prediction.gap := rfl
@[simp] theorem setRing_adaptation (t : Target) (l : List EvalRecord) :
    (setRing t l s).adaptation = s.adaptation := rfl
@[simp] theorem setRing_stations (t : Target) (l : List EvalRecord) :
    (setRing t l s).stations = s.stations := rfl
@[simp] theorem setRing_suppression (t : Target) (l : List EvalRecord) :
    (setRing t l s).suppression = s.suppression := rfl
@[simp] theorem setRing_links (t : Target) (l : List EvalRecord) :
    (setRing t l s).links = s.links := rfl
@[simp] theorem setRing_settings (t : Target) (l : List EvalRecord) :
    (setRing t l s).settings = s.settings := rfl
@[simp] theorem setRing_port (t : Target) (l : List EvalRecord) :
    (setRing t l s).port = s.port := rfl
@[simp] theorem setRing_pending (t : Target) (l : List EvalRecord) :
    (setRing t l s).pending = s.pending := rfl
@[simp] theorem getRecord_setRing (t : Target) (l : List EvalRecord) (n : RecordNo) :
    getRecord n (setRing t l s) = getRecord n s := rfl
@[simp] theorem getLive_setRing (t : Target) (l : List EvalRecord) (x : Slot) :
    getLive x (setRing t l s) = getLive x s := rfl
@[simp] theorem getAdapt_setRing (t : Target) (l : List EvalRecord) (u : Target) :
    getAdapt u (setRing t l s) = getAdapt u s := rfl
@[simp] theorem getStation_setRing (t : Target) (l : List EvalRecord) (j : Station) :
    getStation j (setRing t l s) = getStation j s := rfl
@[simp] theorem getSuppression_setRing (t : Target) (l : List EvalRecord) (x : Slot) :
    getSuppression x (setRing t l s) = getSuppression x s := rfl
@[simp] theorem getLink_setRing (t : Target) (l : List EvalRecord) (x : Slot) :
    getLink x (setRing t l s) = getLink x s := rfl
@[simp] theorem targetSettings_setRing (t : Target) (l : List EvalRecord) (u : Target) :
    targetSettings u (setRing t l s) = targetSettings u s := rfl
@[simp] theorem stationSettings_setRing (t : Target) (l : List EvalRecord) (j : Station) :
    stationSettings j (setRing t l s) = stationSettings j s := rfl

/-! ### setEvaluations -/

@[simp] theorem setEvaluations_now (l : List Evaluation) : (setEvaluations l s).now = s.now := rfl
@[simp] theorem setEvaluations_boundary (l : List Evaluation) :
    (setEvaluations l s).boundary = s.boundary := rfl
@[simp] theorem setEvaluations_coldReset (l : List Evaluation) :
    (setEvaluations l s).coldReset = s.coldReset := rfl
@[simp] theorem setEvaluations_table (l : List Evaluation) :
    (setEvaluations l s).table = s.table := rfl
@[simp] theorem setEvaluations_cache (l : List Evaluation) :
    (setEvaluations l s).cache = s.cache := rfl
@[simp] theorem setEvaluations_store (l : List Evaluation) :
    (setEvaluations l s).store = s.store := rfl
@[simp] theorem setEvaluations_prediction_rings (l : List Evaluation) :
    (setEvaluations l s).prediction.rings = s.prediction.rings := rfl
@[simp] theorem setEvaluations_prediction_gap (l : List Evaluation) :
    (setEvaluations l s).prediction.gap = s.prediction.gap := rfl
@[simp] theorem setEvaluations_adaptation (l : List Evaluation) :
    (setEvaluations l s).adaptation = s.adaptation := rfl
@[simp] theorem setEvaluations_stations (l : List Evaluation) :
    (setEvaluations l s).stations = s.stations := rfl
@[simp] theorem setEvaluations_suppression (l : List Evaluation) :
    (setEvaluations l s).suppression = s.suppression := rfl
@[simp] theorem setEvaluations_links (l : List Evaluation) :
    (setEvaluations l s).links = s.links := rfl
@[simp] theorem setEvaluations_settings (l : List Evaluation) :
    (setEvaluations l s).settings = s.settings := rfl
@[simp] theorem setEvaluations_port (l : List Evaluation) :
    (setEvaluations l s).port = s.port := rfl
@[simp] theorem setEvaluations_pending (l : List Evaluation) :
    (setEvaluations l s).pending = s.pending := rfl
@[simp] theorem getRecord_setEvaluations (l : List Evaluation) (n : RecordNo) :
    getRecord n (setEvaluations l s) = getRecord n s := rfl
@[simp] theorem getLive_setEvaluations (l : List Evaluation) (x : Slot) :
    getLive x (setEvaluations l s) = getLive x s := rfl
@[simp] theorem getAdapt_setEvaluations (l : List Evaluation) (u : Target) :
    getAdapt u (setEvaluations l s) = getAdapt u s := rfl
@[simp] theorem getStation_setEvaluations (l : List Evaluation) (j : Station) :
    getStation j (setEvaluations l s) = getStation j s := rfl
@[simp] theorem getSuppression_setEvaluations (l : List Evaluation) (x : Slot) :
    getSuppression x (setEvaluations l s) = getSuppression x s := rfl
@[simp] theorem getLink_setEvaluations (l : List Evaluation) (x : Slot) :
    getLink x (setEvaluations l s) = getLink x s := rfl
@[simp] theorem getRing_setEvaluations (l : List Evaluation) (u : Target) :
    getRing u (setEvaluations l s) = getRing u s := rfl
@[simp] theorem targetSettings_setEvaluations (l : List Evaluation) (u : Target) :
    targetSettings u (setEvaluations l s) = targetSettings u s := rfl
@[simp] theorem stationSettings_setEvaluations (l : List Evaluation) (j : Station) :
    stationSettings j (setEvaluations l s) = stationSettings j s := rfl

/-! ### setSteps -/

@[simp] theorem setSteps_now (begun rest : List Step) : (setSteps begun rest s).now = s.now := rfl
@[simp] theorem setSteps_boundary (begun rest : List Step) :
    (setSteps begun rest s).boundary = s.boundary := rfl
@[simp] theorem setSteps_coldReset (begun rest : List Step) :
    (setSteps begun rest s).coldReset = s.coldReset := rfl
@[simp] theorem setSteps_table (begun rest : List Step) :
    (setSteps begun rest s).table = s.table := rfl
@[simp] theorem setSteps_cache (begun rest : List Step) :
    (setSteps begun rest s).cache = s.cache := rfl
@[simp] theorem setSteps_store (begun rest : List Step) :
    (setSteps begun rest s).store = s.store := rfl
@[simp] theorem setSteps_prediction (begun rest : List Step) :
    (setSteps begun rest s).prediction = s.prediction := rfl
@[simp] theorem setSteps_adaptation_records (begun rest : List Step) :
    (setSteps begun rest s).adaptation.records = s.adaptation.records := rfl
@[simp] theorem setSteps_adaptation_gap (begun rest : List Step) :
    (setSteps begun rest s).adaptation.gap = s.adaptation.gap := rfl
@[simp] theorem setSteps_stations (begun rest : List Step) :
    (setSteps begun rest s).stations = s.stations := rfl
@[simp] theorem setSteps_suppression (begun rest : List Step) :
    (setSteps begun rest s).suppression = s.suppression := rfl
@[simp] theorem setSteps_links (begun rest : List Step) :
    (setSteps begun rest s).links = s.links := rfl
@[simp] theorem setSteps_settings (begun rest : List Step) :
    (setSteps begun rest s).settings = s.settings := rfl
@[simp] theorem setSteps_port (begun rest : List Step) :
    (setSteps begun rest s).port = s.port := rfl
@[simp] theorem setSteps_pending (begun rest : List Step) :
    (setSteps begun rest s).pending = s.pending := rfl
@[simp] theorem getRecord_setSteps (begun rest : List Step) (n : RecordNo) :
    getRecord n (setSteps begun rest s) = getRecord n s := rfl
@[simp] theorem getLive_setSteps (begun rest : List Step) (x : Slot) :
    getLive x (setSteps begun rest s) = getLive x s := rfl
@[simp] theorem getAdapt_setSteps (begun rest : List Step) (u : Target) :
    getAdapt u (setSteps begun rest s) = getAdapt u s := rfl
@[simp] theorem getStation_setSteps (begun rest : List Step) (j : Station) :
    getStation j (setSteps begun rest s) = getStation j s := rfl
@[simp] theorem getSuppression_setSteps (begun rest : List Step) (x : Slot) :
    getSuppression x (setSteps begun rest s) = getSuppression x s := rfl
@[simp] theorem getLink_setSteps (begun rest : List Step) (x : Slot) :
    getLink x (setSteps begun rest s) = getLink x s := rfl
@[simp] theorem getRing_setSteps (begun rest : List Step) (u : Target) :
    getRing u (setSteps begun rest s) = getRing u s := rfl
@[simp] theorem targetSettings_setSteps (begun rest : List Step) (u : Target) :
    targetSettings u (setSteps begun rest s) = targetSettings u s := rfl
@[simp] theorem stationSettings_setSteps (begun rest : List Step) (j : Station) :
    stationSettings j (setSteps begun rest s) = stationSettings j s := rfl

/-! ### setGaps -/

@[simp] theorem setGaps_now (p a : Bool) : (setGaps p a s).now = s.now := rfl
@[simp] theorem setGaps_boundary (p a : Bool) : (setGaps p a s).boundary = s.boundary := rfl
@[simp] theorem setGaps_coldReset (p a : Bool) : (setGaps p a s).coldReset = s.coldReset := rfl
@[simp] theorem setGaps_table (p a : Bool) : (setGaps p a s).table = s.table := rfl
@[simp] theorem setGaps_cache (p a : Bool) : (setGaps p a s).cache = s.cache := rfl
@[simp] theorem setGaps_store (p a : Bool) : (setGaps p a s).store = s.store := rfl
@[simp] theorem setGaps_prediction_rings (p a : Bool) :
    (setGaps p a s).prediction.rings = s.prediction.rings := rfl
@[simp] theorem setGaps_prediction_evaluations (p a : Bool) :
    (setGaps p a s).prediction.evaluations = s.prediction.evaluations := rfl
@[simp] theorem setGaps_adaptation_records (p a : Bool) :
    (setGaps p a s).adaptation.records = s.adaptation.records := rfl
@[simp] theorem setGaps_adaptation_steps (p a : Bool) :
    (setGaps p a s).adaptation.steps = s.adaptation.steps := rfl
@[simp] theorem setGaps_adaptation_openMoment (p a : Bool) :
    (setGaps p a s).adaptation.openMoment = s.adaptation.openMoment := rfl
@[simp] theorem setGaps_stations (p a : Bool) : (setGaps p a s).stations = s.stations := rfl
@[simp] theorem setGaps_suppression (p a : Bool) :
    (setGaps p a s).suppression = s.suppression := rfl
@[simp] theorem setGaps_links (p a : Bool) : (setGaps p a s).links = s.links := rfl
@[simp] theorem setGaps_settings (p a : Bool) : (setGaps p a s).settings = s.settings := rfl
@[simp] theorem setGaps_port (p a : Bool) : (setGaps p a s).port = s.port := rfl
@[simp] theorem setGaps_pending (p a : Bool) : (setGaps p a s).pending = s.pending := rfl
@[simp] theorem getRecord_setGaps (p a : Bool) (n : RecordNo) :
    getRecord n (setGaps p a s) = getRecord n s := rfl
@[simp] theorem getLive_setGaps (p a : Bool) (x : Slot) :
    getLive x (setGaps p a s) = getLive x s := rfl
@[simp] theorem getAdapt_setGaps (p a : Bool) (u : Target) :
    getAdapt u (setGaps p a s) = getAdapt u s := rfl
@[simp] theorem getStation_setGaps (p a : Bool) (j : Station) :
    getStation j (setGaps p a s) = getStation j s := rfl
@[simp] theorem getSuppression_setGaps (p a : Bool) (x : Slot) :
    getSuppression x (setGaps p a s) = getSuppression x s := rfl
@[simp] theorem getLink_setGaps (p a : Bool) (x : Slot) :
    getLink x (setGaps p a s) = getLink x s := rfl
@[simp] theorem getRing_setGaps (p a : Bool) (u : Target) :
    getRing u (setGaps p a s) = getRing u s := rfl
@[simp] theorem targetSettings_setGaps (p a : Bool) (u : Target) :
    targetSettings u (setGaps p a s) = targetSettings u s := rfl
@[simp] theorem stationSettings_setGaps (p a : Bool) (j : Station) :
    stationSettings j (setGaps p a s) = stationSettings j s := rfl

/-! ### portAccess -/

@[simp] theorem portAccess_now : (portAccess s).now = s.now := rfl
@[simp] theorem portAccess_boundary : (portAccess s).boundary = s.boundary := rfl
@[simp] theorem portAccess_coldReset : (portAccess s).coldReset = s.coldReset := rfl
@[simp] theorem portAccess_table : (portAccess s).table = s.table := rfl
@[simp] theorem portAccess_cache : (portAccess s).cache = s.cache := rfl
@[simp] theorem portAccess_store : (portAccess s).store = s.store := rfl
@[simp] theorem portAccess_prediction_rings :
    (portAccess s).prediction.rings = s.prediction.rings := rfl
@[simp] theorem portAccess_prediction_evaluations :
    (portAccess s).prediction.evaluations = s.prediction.evaluations := rfl
@[simp] theorem portAccess_adaptation_records :
    (portAccess s).adaptation.records = s.adaptation.records := rfl
@[simp] theorem portAccess_adaptation_steps :
    (portAccess s).adaptation.steps = s.adaptation.steps := rfl
@[simp] theorem portAccess_adaptation_openMoment :
    (portAccess s).adaptation.openMoment = s.adaptation.openMoment := rfl
@[simp] theorem portAccess_stations : (portAccess s).stations = s.stations := rfl
@[simp] theorem portAccess_suppression : (portAccess s).suppression = s.suppression := rfl
@[simp] theorem portAccess_links : (portAccess s).links = s.links := rfl
@[simp] theorem portAccess_settings : (portAccess s).settings = s.settings := rfl
@[simp] theorem portAccess_port : (portAccess s).port = s.port := rfl
@[simp] theorem portAccess_pending : (portAccess s).pending = s.pending := rfl
@[simp] theorem getRecord_portAccess (n : RecordNo) :
    getRecord n (portAccess s) = getRecord n s := rfl
@[simp] theorem getLive_portAccess (x : Slot) : getLive x (portAccess s) = getLive x s := rfl
@[simp] theorem getAdapt_portAccess (u : Target) : getAdapt u (portAccess s) = getAdapt u s := rfl
@[simp] theorem getStation_portAccess (j : Station) :
    getStation j (portAccess s) = getStation j s := rfl
@[simp] theorem getSuppression_portAccess (x : Slot) :
    getSuppression x (portAccess s) = getSuppression x s := rfl
@[simp] theorem getLink_portAccess (x : Slot) : getLink x (portAccess s) = getLink x s := rfl
@[simp] theorem getRing_portAccess (u : Target) : getRing u (portAccess s) = getRing u s := rfl
@[simp] theorem targetSettings_portAccess (u : Target) :
    targetSettings u (portAccess s) = targetSettings u s := rfl
@[simp] theorem stationSettings_portAccess (j : Station) :
    stationSettings j (portAccess s) = stationSettings j s := rfl

/-! ### openMoment -/

@[simp] theorem openMoment_now (m : OpenMoment) : (openMoment m s).now = s.now := rfl
@[simp] theorem openMoment_boundary (m : OpenMoment) : (openMoment m s).boundary = s.boundary := rfl
@[simp] theorem openMoment_coldReset (m : OpenMoment) :
    (openMoment m s).coldReset = s.coldReset := rfl
@[simp] theorem openMoment_table (m : OpenMoment) : (openMoment m s).table = s.table := rfl
@[simp] theorem openMoment_cache (m : OpenMoment) : (openMoment m s).cache = s.cache := rfl
@[simp] theorem openMoment_store (m : OpenMoment) : (openMoment m s).store = s.store := rfl
@[simp] theorem openMoment_prediction (m : OpenMoment) :
    (openMoment m s).prediction = s.prediction := rfl
@[simp] theorem openMoment_adaptation_records (m : OpenMoment) :
    (openMoment m s).adaptation.records = s.adaptation.records := rfl
@[simp] theorem openMoment_adaptation_gap (m : OpenMoment) :
    (openMoment m s).adaptation.gap = s.adaptation.gap := rfl
@[simp] theorem openMoment_stations (m : OpenMoment) : (openMoment m s).stations = s.stations := rfl
@[simp] theorem openMoment_suppression (m : OpenMoment) :
    (openMoment m s).suppression = s.suppression := rfl
@[simp] theorem openMoment_links (m : OpenMoment) : (openMoment m s).links = s.links := rfl
@[simp] theorem openMoment_settings (m : OpenMoment) : (openMoment m s).settings = s.settings := rfl
@[simp] theorem openMoment_port (m : OpenMoment) : (openMoment m s).port = s.port := rfl
@[simp] theorem openMoment_pending (m : OpenMoment) : (openMoment m s).pending = s.pending := rfl
@[simp] theorem getRecord_openMoment (m : OpenMoment) (n : RecordNo) :
    getRecord n (openMoment m s) = getRecord n s := rfl
@[simp] theorem getLive_openMoment (m : OpenMoment) (x : Slot) :
    getLive x (openMoment m s) = getLive x s := rfl
@[simp] theorem getAdapt_openMoment (m : OpenMoment) (u : Target) :
    getAdapt u (openMoment m s) = getAdapt u s := rfl
@[simp] theorem getStation_openMoment (m : OpenMoment) (j : Station) :
    getStation j (openMoment m s) = getStation j s := rfl
@[simp] theorem getSuppression_openMoment (m : OpenMoment) (x : Slot) :
    getSuppression x (openMoment m s) = getSuppression x s := rfl
@[simp] theorem getLink_openMoment (m : OpenMoment) (x : Slot) :
    getLink x (openMoment m s) = getLink x s := rfl
@[simp] theorem getRing_openMoment (m : OpenMoment) (u : Target) :
    getRing u (openMoment m s) = getRing u s := rfl
@[simp] theorem targetSettings_openMoment (m : OpenMoment) (u : Target) :
    targetSettings u (openMoment m s) = targetSettings u s := rfl
@[simp] theorem stationSettings_openMoment (m : OpenMoment) (j : Station) :
    stationSettings j (openMoment m s) = stationSettings j s := rfl

/-! ### transactionStart -/

@[simp] theorem transactionStart_now : (transactionStart s).now = s.now := rfl
@[simp] theorem transactionStart_boundary : (transactionStart s).boundary = s.boundary := rfl
@[simp] theorem transactionStart_coldReset : (transactionStart s).coldReset = s.coldReset := rfl
@[simp] theorem transactionStart_table : (transactionStart s).table = s.table := rfl
@[simp] theorem transactionStart_cache : (transactionStart s).cache = s.cache := rfl
@[simp] theorem transactionStart_store : (transactionStart s).store = s.store := rfl
@[simp] theorem transactionStart_prediction : (transactionStart s).prediction = s.prediction := rfl
@[simp] theorem transactionStart_adaptation : (transactionStart s).adaptation = s.adaptation := rfl
@[simp] theorem transactionStart_stations : (transactionStart s).stations = s.stations := rfl
@[simp] theorem transactionStart_suppression :
    (transactionStart s).suppression = s.suppression := rfl
@[simp] theorem transactionStart_links : (transactionStart s).links = s.links := rfl
@[simp] theorem transactionStart_settings : (transactionStart s).settings = s.settings := rfl
@[simp] theorem transactionStart_port_held : (transactionStart s).port.held = s.port.held := rfl
@[simp] theorem transactionStart_port_executing :
    (transactionStart s).port.executing = s.port.executing := rfl
@[simp] theorem transactionStart_port_latched :
    (transactionStart s).port.latched = s.port.latched := rfl
@[simp] theorem transactionStart_port_mask : (transactionStart s).port.mask = s.port.mask := rfl
@[simp] theorem transactionStart_port_cause : (transactionStart s).port.cause = s.port.cause := rfl
@[simp] theorem transactionStart_pending : (transactionStart s).pending = s.pending := rfl
@[simp] theorem getRecord_transactionStart (n : RecordNo) :
    getRecord n (transactionStart s) = getRecord n s := rfl
@[simp] theorem getLive_transactionStart (x : Slot) :
    getLive x (transactionStart s) = getLive x s := rfl
@[simp] theorem getAdapt_transactionStart (u : Target) :
    getAdapt u (transactionStart s) = getAdapt u s := rfl
@[simp] theorem getStation_transactionStart (j : Station) :
    getStation j (transactionStart s) = getStation j s := rfl
@[simp] theorem getSuppression_transactionStart (x : Slot) :
    getSuppression x (transactionStart s) = getSuppression x s := rfl
@[simp] theorem getLink_transactionStart (x : Slot) :
    getLink x (transactionStart s) = getLink x s := rfl
@[simp] theorem getRing_transactionStart (u : Target) :
    getRing u (transactionStart s) = getRing u s := rfl
@[simp] theorem targetSettings_transactionStart (u : Target) :
    targetSettings u (transactionStart s) = targetSettings u s := rfl
@[simp] theorem stationSettings_transactionStart (j : Station) :
    stationSettings j (transactionStart s) = stationSettings j s := rfl

/-! ### untakenStart -/

@[simp] theorem untakenStart_now : (untakenStart s).now = s.now := rfl
@[simp] theorem untakenStart_boundary : (untakenStart s).boundary = s.boundary := rfl
@[simp] theorem untakenStart_coldReset : (untakenStart s).coldReset = s.coldReset := rfl
@[simp] theorem untakenStart_table : (untakenStart s).table = s.table := rfl
@[simp] theorem untakenStart_cache : (untakenStart s).cache = s.cache := rfl
@[simp] theorem untakenStart_store : (untakenStart s).store = s.store := rfl
@[simp] theorem untakenStart_prediction : (untakenStart s).prediction = s.prediction := rfl
@[simp] theorem untakenStart_adaptation : (untakenStart s).adaptation = s.adaptation := rfl
@[simp] theorem untakenStart_stations : (untakenStart s).stations = s.stations := rfl
@[simp] theorem untakenStart_suppression : (untakenStart s).suppression = s.suppression := rfl
@[simp] theorem untakenStart_links : (untakenStart s).links = s.links := rfl
@[simp] theorem untakenStart_settings : (untakenStart s).settings = s.settings := rfl
@[simp] theorem untakenStart_port_held : (untakenStart s).port.held = s.port.held := rfl
@[simp] theorem untakenStart_port_executing :
    (untakenStart s).port.executing = s.port.executing := rfl
@[simp] theorem untakenStart_port_transaction :
    (untakenStart s).port.transaction = s.port.transaction := rfl
@[simp] theorem untakenStart_port_latched : (untakenStart s).port.latched = s.port.latched := rfl
@[simp] theorem untakenStart_port_mask : (untakenStart s).port.mask = s.port.mask := rfl
@[simp] theorem untakenStart_port_cause : (untakenStart s).port.cause = s.port.cause := rfl
@[simp] theorem untakenStart_pending : (untakenStart s).pending = s.pending := rfl
@[simp] theorem getRecord_untakenStart (n : RecordNo) :
    getRecord n (untakenStart s) = getRecord n s := rfl
@[simp] theorem getLive_untakenStart (x : Slot) : getLive x (untakenStart s) = getLive x s := rfl
@[simp] theorem getAdapt_untakenStart (u : Target) :
    getAdapt u (untakenStart s) = getAdapt u s := rfl
@[simp] theorem getStation_untakenStart (j : Station) :
    getStation j (untakenStart s) = getStation j s := rfl
@[simp] theorem getSuppression_untakenStart (x : Slot) :
    getSuppression x (untakenStart s) = getSuppression x s := rfl
@[simp] theorem getLink_untakenStart (x : Slot) : getLink x (untakenStart s) = getLink x s := rfl
@[simp] theorem getRing_untakenStart (u : Target) : getRing u (untakenStart s) = getRing u s := rfl
@[simp] theorem targetSettings_untakenStart (u : Target) :
    targetSettings u (untakenStart s) = targetSettings u s := rfl
@[simp] theorem stationSettings_untakenStart (j : Station) :
    stationSettings j (untakenStart s) = stationSettings j s := rfl

/-! ### setStore -/

@[simp] theorem setStore_now (c : CouplingStore) : (setStore c s).now = s.now := rfl
@[simp] theorem setStore_boundary (c : CouplingStore) : (setStore c s).boundary = s.boundary := rfl
@[simp] theorem setStore_coldReset (c : CouplingStore) :
    (setStore c s).coldReset = s.coldReset := rfl
@[simp] theorem setStore_table (c : CouplingStore) : (setStore c s).table = s.table := rfl
@[simp] theorem setStore_cache (c : CouplingStore) : (setStore c s).cache = s.cache := rfl
@[simp] theorem setStore_prediction (c : CouplingStore) :
    (setStore c s).prediction = s.prediction := rfl
@[simp] theorem setStore_adaptation (c : CouplingStore) :
    (setStore c s).adaptation = s.adaptation := rfl
@[simp] theorem setStore_stations (c : CouplingStore) : (setStore c s).stations = s.stations := rfl
@[simp] theorem setStore_suppression (c : CouplingStore) :
    (setStore c s).suppression = s.suppression := rfl
@[simp] theorem setStore_links (c : CouplingStore) : (setStore c s).links = s.links := rfl
@[simp] theorem setStore_settings (c : CouplingStore) : (setStore c s).settings = s.settings := rfl
@[simp] theorem setStore_port (c : CouplingStore) : (setStore c s).port = s.port := rfl
@[simp] theorem setStore_pending (c : CouplingStore) : (setStore c s).pending = s.pending := rfl
@[simp] theorem getRecord_setStore (c : CouplingStore) (n : RecordNo) :
    getRecord n (setStore c s) = getRecord n s := rfl
@[simp] theorem getLive_setStore (c : CouplingStore) (x : Slot) :
    getLive x (setStore c s) = getLive x s := rfl
@[simp] theorem getAdapt_setStore (c : CouplingStore) (u : Target) :
    getAdapt u (setStore c s) = getAdapt u s := rfl
@[simp] theorem getStation_setStore (c : CouplingStore) (j : Station) :
    getStation j (setStore c s) = getStation j s := rfl
@[simp] theorem getSuppression_setStore (c : CouplingStore) (x : Slot) :
    getSuppression x (setStore c s) = getSuppression x s := rfl
@[simp] theorem getLink_setStore (c : CouplingStore) (x : Slot) :
    getLink x (setStore c s) = getLink x s := rfl
@[simp] theorem getRing_setStore (c : CouplingStore) (u : Target) :
    getRing u (setStore c s) = getRing u s := rfl
@[simp] theorem targetSettings_setStore (c : CouplingStore) (u : Target) :
    targetSettings u (setStore c s) = targetSettings u s := rfl
@[simp] theorem stationSettings_setStore (c : CouplingStore) (j : Station) :
    stationSettings j (setStore c s) = stationSettings j s := rfl

/-! ### latch -/

@[simp] theorem latch_now (f : Flag) : (latch f s).now = s.now := rfl
@[simp] theorem latch_boundary (f : Flag) : (latch f s).boundary = s.boundary := rfl
@[simp] theorem latch_coldReset (f : Flag) : (latch f s).coldReset = s.coldReset := rfl
@[simp] theorem latch_table (f : Flag) : (latch f s).table = s.table := rfl
@[simp] theorem latch_cache (f : Flag) : (latch f s).cache = s.cache := rfl
@[simp] theorem latch_store (f : Flag) : (latch f s).store = s.store := rfl
@[simp] theorem latch_prediction (f : Flag) : (latch f s).prediction = s.prediction := rfl
@[simp] theorem latch_adaptation (f : Flag) : (latch f s).adaptation = s.adaptation := rfl
@[simp] theorem latch_stations (f : Flag) : (latch f s).stations = s.stations := rfl
@[simp] theorem latch_suppression (f : Flag) : (latch f s).suppression = s.suppression := rfl
@[simp] theorem latch_links (f : Flag) : (latch f s).links = s.links := rfl
@[simp] theorem latch_settings (f : Flag) : (latch f s).settings = s.settings := rfl
@[simp] theorem latch_port_held (f : Flag) : (latch f s).port.held = s.port.held := rfl
@[simp] theorem latch_port_executing (f : Flag) :
    (latch f s).port.executing = s.port.executing := rfl
@[simp] theorem latch_port_transaction (f : Flag) :
    (latch f s).port.transaction = s.port.transaction := rfl
@[simp] theorem latch_port_cutOff (f : Flag) : (latch f s).port.cutOff = s.port.cutOff := rfl
@[simp] theorem latch_port_mask (f : Flag) : (latch f s).port.mask = s.port.mask := rfl
@[simp] theorem latch_port_cause (f : Flag) : (latch f s).port.cause = s.port.cause := rfl
@[simp] theorem latch_pending (f : Flag) : (latch f s).pending = s.pending := rfl
@[simp] theorem getRecord_latch (f : Flag) (n : RecordNo) :
    getRecord n (latch f s) = getRecord n s := rfl
@[simp] theorem getLive_latch (f : Flag) (x : Slot) : getLive x (latch f s) = getLive x s := rfl
@[simp] theorem getAdapt_latch (f : Flag) (u : Target) :
    getAdapt u (latch f s) = getAdapt u s := rfl
@[simp] theorem getStation_latch (f : Flag) (j : Station) :
    getStation j (latch f s) = getStation j s := rfl
@[simp] theorem getSuppression_latch (f : Flag) (x : Slot) :
    getSuppression x (latch f s) = getSuppression x s := rfl
@[simp] theorem getLink_latch (f : Flag) (x : Slot) : getLink x (latch f s) = getLink x s := rfl
@[simp] theorem getRing_latch (f : Flag) (u : Target) : getRing u (latch f s) = getRing u s := rfl
@[simp] theorem targetSettings_latch (f : Flag) (u : Target) :
    targetSettings u (latch f s) = targetSettings u s := rfl
@[simp] theorem stationSettings_latch (f : Flag) (j : Station) :
    stationSettings j (latch f s) = stationSettings j s := rfl

/-! ### respond -/

@[simp] theorem respond_now (r : Response) : (respond r s).now = s.now := rfl
@[simp] theorem respond_boundary (r : Response) : (respond r s).boundary = s.boundary := rfl
@[simp] theorem respond_coldReset (r : Response) : (respond r s).coldReset = s.coldReset := rfl
@[simp] theorem respond_table (r : Response) : (respond r s).table = s.table := rfl
@[simp] theorem respond_cache (r : Response) : (respond r s).cache = s.cache := rfl
@[simp] theorem respond_store (r : Response) : (respond r s).store = s.store := rfl
@[simp] theorem respond_prediction (r : Response) : (respond r s).prediction = s.prediction := rfl
@[simp] theorem respond_adaptation (r : Response) : (respond r s).adaptation = s.adaptation := rfl
@[simp] theorem respond_stations (r : Response) : (respond r s).stations = s.stations := rfl
@[simp] theorem respond_suppression (r : Response) :
    (respond r s).suppression = s.suppression := rfl
@[simp] theorem respond_links (r : Response) : (respond r s).links = s.links := rfl
@[simp] theorem respond_settings (r : Response) : (respond r s).settings = s.settings := rfl
@[simp] theorem respond_port_executing (r : Response) :
    (respond r s).port.executing = s.port.executing := rfl
@[simp] theorem respond_port_transaction (r : Response) :
    (respond r s).port.transaction = s.port.transaction := rfl
@[simp] theorem respond_port_cutOff (r : Response) :
    (respond r s).port.cutOff = s.port.cutOff := rfl
@[simp] theorem respond_port_latched (r : Response) :
    (respond r s).port.latched = s.port.latched := rfl
@[simp] theorem respond_port_mask (r : Response) : (respond r s).port.mask = s.port.mask := rfl
@[simp] theorem respond_port_cause (r : Response) : (respond r s).port.cause = s.port.cause := rfl
@[simp] theorem respond_pending (r : Response) : (respond r s).pending = s.pending := rfl
@[simp] theorem getRecord_respond (r : Response) (n : RecordNo) :
    getRecord n (respond r s) = getRecord n s := rfl
@[simp] theorem getLive_respond (r : Response) (x : Slot) :
    getLive x (respond r s) = getLive x s := rfl
@[simp] theorem getAdapt_respond (r : Response) (u : Target) :
    getAdapt u (respond r s) = getAdapt u s := rfl
@[simp] theorem getStation_respond (r : Response) (j : Station) :
    getStation j (respond r s) = getStation j s := rfl
@[simp] theorem getSuppression_respond (r : Response) (x : Slot) :
    getSuppression x (respond r s) = getSuppression x s := rfl
@[simp] theorem getLink_respond (r : Response) (x : Slot) :
    getLink x (respond r s) = getLink x s := rfl
@[simp] theorem getRing_respond (r : Response) (u : Target) :
    getRing u (respond r s) = getRing u s := rfl
@[simp] theorem targetSettings_respond (r : Response) (u : Target) :
    targetSettings u (respond r s) = targetSettings u s := rfl
@[simp] theorem stationSettings_respond (r : Response) (j : Station) :
    stationSettings j (respond r s) = stationSettings j s := rfl

/-! ### endTransaction -/

@[simp] theorem endTransaction_now : (endTransaction s).now = s.now := rfl
@[simp] theorem endTransaction_boundary : (endTransaction s).boundary = s.boundary := rfl
@[simp] theorem endTransaction_coldReset : (endTransaction s).coldReset = s.coldReset := rfl
@[simp] theorem endTransaction_table : (endTransaction s).table = s.table := rfl
@[simp] theorem endTransaction_cache : (endTransaction s).cache = s.cache := rfl
@[simp] theorem endTransaction_store : (endTransaction s).store = s.store := rfl
@[simp] theorem endTransaction_prediction : (endTransaction s).prediction = s.prediction := rfl
@[simp] theorem endTransaction_adaptation : (endTransaction s).adaptation = s.adaptation := rfl
@[simp] theorem endTransaction_stations : (endTransaction s).stations = s.stations := rfl
@[simp] theorem endTransaction_suppression : (endTransaction s).suppression = s.suppression := rfl
@[simp] theorem endTransaction_links : (endTransaction s).links = s.links := rfl
@[simp] theorem endTransaction_settings : (endTransaction s).settings = s.settings := rfl
@[simp] theorem endTransaction_port_held : (endTransaction s).port.held = s.port.held := rfl
@[simp] theorem endTransaction_port_executing :
    (endTransaction s).port.executing = s.port.executing := rfl
@[simp] theorem endTransaction_port_latched :
    (endTransaction s).port.latched = s.port.latched := rfl
@[simp] theorem endTransaction_port_mask : (endTransaction s).port.mask = s.port.mask := rfl
@[simp] theorem endTransaction_port_cause : (endTransaction s).port.cause = s.port.cause := rfl
@[simp] theorem endTransaction_pending : (endTransaction s).pending = s.pending := rfl
@[simp] theorem getRecord_endTransaction (n : RecordNo) :
    getRecord n (endTransaction s) = getRecord n s := rfl
@[simp] theorem getLive_endTransaction (x : Slot) :
    getLive x (endTransaction s) = getLive x s := rfl
@[simp] theorem getAdapt_endTransaction (u : Target) :
    getAdapt u (endTransaction s) = getAdapt u s := rfl
@[simp] theorem getStation_endTransaction (j : Station) :
    getStation j (endTransaction s) = getStation j s := rfl
@[simp] theorem getSuppression_endTransaction (x : Slot) :
    getSuppression x (endTransaction s) = getSuppression x s := rfl
@[simp] theorem getLink_endTransaction (x : Slot) :
    getLink x (endTransaction s) = getLink x s := rfl
@[simp] theorem getRing_endTransaction (u : Target) :
    getRing u (endTransaction s) = getRing u s := rfl
@[simp] theorem targetSettings_endTransaction (u : Target) :
    targetSettings u (endTransaction s) = targetSettings u s := rfl
@[simp] theorem stationSettings_endTransaction (j : Station) :
    stationSettings j (endTransaction s) = stationSettings j s := rfl

/-! ### execute -/

@[simp] theorem execute_now (e : Executing) : (execute e s).now = s.now := rfl
@[simp] theorem execute_boundary (e : Executing) : (execute e s).boundary = s.boundary := rfl
@[simp] theorem execute_coldReset (e : Executing) : (execute e s).coldReset = s.coldReset := rfl
@[simp] theorem execute_table (e : Executing) : (execute e s).table = s.table := rfl
@[simp] theorem execute_cache (e : Executing) : (execute e s).cache = s.cache := rfl
@[simp] theorem execute_store (e : Executing) : (execute e s).store = s.store := rfl
@[simp] theorem execute_prediction (e : Executing) : (execute e s).prediction = s.prediction := rfl
@[simp] theorem execute_adaptation (e : Executing) : (execute e s).adaptation = s.adaptation := rfl
@[simp] theorem execute_stations (e : Executing) : (execute e s).stations = s.stations := rfl
@[simp] theorem execute_suppression (e : Executing) :
    (execute e s).suppression = s.suppression := rfl
@[simp] theorem execute_links (e : Executing) : (execute e s).links = s.links := rfl
@[simp] theorem execute_settings (e : Executing) : (execute e s).settings = s.settings := rfl
@[simp] theorem execute_port_held (e : Executing) : (execute e s).port.held = s.port.held := rfl
@[simp] theorem execute_port_transaction (e : Executing) :
    (execute e s).port.transaction = s.port.transaction := rfl
@[simp] theorem execute_port_cutOff (e : Executing) :
    (execute e s).port.cutOff = s.port.cutOff := rfl
@[simp] theorem execute_port_latched (e : Executing) :
    (execute e s).port.latched = s.port.latched := rfl
@[simp] theorem execute_port_mask (e : Executing) : (execute e s).port.mask = s.port.mask := rfl
@[simp] theorem execute_port_cause (e : Executing) : (execute e s).port.cause = s.port.cause := rfl
@[simp] theorem execute_pending (e : Executing) : (execute e s).pending = s.pending := rfl
@[simp] theorem getRecord_execute (e : Executing) (n : RecordNo) :
    getRecord n (execute e s) = getRecord n s := rfl
@[simp] theorem getLive_execute (e : Executing) (x : Slot) :
    getLive x (execute e s) = getLive x s := rfl
@[simp] theorem getAdapt_execute (e : Executing) (u : Target) :
    getAdapt u (execute e s) = getAdapt u s := rfl
@[simp] theorem getStation_execute (e : Executing) (j : Station) :
    getStation j (execute e s) = getStation j s := rfl
@[simp] theorem getSuppression_execute (e : Executing) (x : Slot) :
    getSuppression x (execute e s) = getSuppression x s := rfl
@[simp] theorem getLink_execute (e : Executing) (x : Slot) :
    getLink x (execute e s) = getLink x s := rfl
@[simp] theorem getRing_execute (e : Executing) (u : Target) :
    getRing u (execute e s) = getRing u s := rfl
@[simp] theorem targetSettings_execute (e : Executing) (u : Target) :
    targetSettings u (execute e s) = targetSettings u s := rfl
@[simp] theorem stationSettings_execute (e : Executing) (j : Station) :
    stationSettings j (execute e s) = stationSettings j s := rfl

/-! ### finish -/

@[simp] theorem finish_now (r : Response) : (finish r s).now = s.now := rfl
@[simp] theorem finish_boundary (r : Response) : (finish r s).boundary = s.boundary := rfl
@[simp] theorem finish_coldReset (r : Response) : (finish r s).coldReset = s.coldReset := rfl
@[simp] theorem finish_table (r : Response) : (finish r s).table = s.table := rfl
@[simp] theorem finish_cache (r : Response) : (finish r s).cache = s.cache := rfl
@[simp] theorem finish_store (r : Response) : (finish r s).store = s.store := rfl
@[simp] theorem finish_prediction (r : Response) : (finish r s).prediction = s.prediction := rfl
@[simp] theorem finish_adaptation (r : Response) : (finish r s).adaptation = s.adaptation := rfl
@[simp] theorem finish_stations (r : Response) : (finish r s).stations = s.stations := rfl
@[simp] theorem finish_suppression (r : Response) : (finish r s).suppression = s.suppression := rfl
@[simp] theorem finish_links (r : Response) : (finish r s).links = s.links := rfl
@[simp] theorem finish_settings (r : Response) : (finish r s).settings = s.settings := rfl
@[simp] theorem finish_port_transaction (r : Response) :
    (finish r s).port.transaction = s.port.transaction := rfl
@[simp] theorem finish_port_cutOff (r : Response) : (finish r s).port.cutOff = s.port.cutOff := rfl
@[simp] theorem finish_port_latched (r : Response) :
    (finish r s).port.latched = s.port.latched := rfl
@[simp] theorem finish_port_mask (r : Response) : (finish r s).port.mask = s.port.mask := rfl
@[simp] theorem finish_port_cause (r : Response) : (finish r s).port.cause = s.port.cause := rfl
@[simp] theorem finish_pending (r : Response) : (finish r s).pending = s.pending := rfl
@[simp] theorem getRecord_finish (r : Response) (n : RecordNo) :
    getRecord n (finish r s) = getRecord n s := rfl
@[simp] theorem getLive_finish (r : Response) (x : Slot) :
    getLive x (finish r s) = getLive x s := rfl
@[simp] theorem getAdapt_finish (r : Response) (u : Target) :
    getAdapt u (finish r s) = getAdapt u s := rfl
@[simp] theorem getStation_finish (r : Response) (j : Station) :
    getStation j (finish r s) = getStation j s := rfl
@[simp] theorem getSuppression_finish (r : Response) (x : Slot) :
    getSuppression x (finish r s) = getSuppression x s := rfl
@[simp] theorem getLink_finish (r : Response) (x : Slot) :
    getLink x (finish r s) = getLink x s := rfl
@[simp] theorem getRing_finish (r : Response) (u : Target) :
    getRing u (finish r s) = getRing u s := rfl
@[simp] theorem targetSettings_finish (r : Response) (u : Target) :
    targetSettings u (finish r s) = targetSettings u s := rfl
@[simp] theorem stationSettings_finish (r : Response) (j : Station) :
    stationSettings j (finish r s) = stationSettings j s := rfl

/-! ### enqueue -/

@[simp] theorem enqueue_now (id : ProfileId) : (enqueue id s).now = s.now := rfl
@[simp] theorem enqueue_boundary (id : ProfileId) : (enqueue id s).boundary = s.boundary := rfl
@[simp] theorem enqueue_coldReset (id : ProfileId) : (enqueue id s).coldReset = s.coldReset := rfl
@[simp] theorem enqueue_table (id : ProfileId) : (enqueue id s).table = s.table := rfl
@[simp] theorem enqueue_cache_slots (id : ProfileId) :
    (enqueue id s).cache.slots = s.cache.slots := rfl
@[simp] theorem enqueue_cache_lru (id : ProfileId) : (enqueue id s).cache.lru = s.cache.lru := rfl
@[simp] theorem enqueue_cache_unusable (id : ProfileId) :
    (enqueue id s).cache.unusable = s.cache.unusable := rfl
@[simp] theorem enqueue_cache_flight (id : ProfileId) :
    (enqueue id s).cache.flight = s.cache.flight := rfl
@[simp] theorem enqueue_cache_port (id : ProfileId) :
    (enqueue id s).cache.port = s.cache.port := rfl
@[simp] theorem enqueue_store (id : ProfileId) : (enqueue id s).store = s.store := rfl
@[simp] theorem enqueue_prediction (id : ProfileId) :
    (enqueue id s).prediction = s.prediction := rfl
@[simp] theorem enqueue_adaptation (id : ProfileId) :
    (enqueue id s).adaptation = s.adaptation := rfl
@[simp] theorem enqueue_stations (id : ProfileId) : (enqueue id s).stations = s.stations := rfl
@[simp] theorem enqueue_suppression (id : ProfileId) :
    (enqueue id s).suppression = s.suppression := rfl
@[simp] theorem enqueue_links (id : ProfileId) : (enqueue id s).links = s.links := rfl
@[simp] theorem enqueue_settings (id : ProfileId) : (enqueue id s).settings = s.settings := rfl
@[simp] theorem enqueue_port (id : ProfileId) : (enqueue id s).port = s.port := rfl
@[simp] theorem enqueue_pending (id : ProfileId) : (enqueue id s).pending = s.pending := rfl
@[simp] theorem getRecord_enqueue (id : ProfileId) (n : RecordNo) :
    getRecord n (enqueue id s) = getRecord n s := rfl
@[simp] theorem getLive_enqueue (id : ProfileId) (x : Slot) :
    getLive x (enqueue id s) = getLive x s := rfl
@[simp] theorem getAdapt_enqueue (id : ProfileId) (u : Target) :
    getAdapt u (enqueue id s) = getAdapt u s := rfl
@[simp] theorem getStation_enqueue (id : ProfileId) (j : Station) :
    getStation j (enqueue id s) = getStation j s := rfl
@[simp] theorem getSuppression_enqueue (id : ProfileId) (x : Slot) :
    getSuppression x (enqueue id s) = getSuppression x s := rfl
@[simp] theorem getLink_enqueue (id : ProfileId) (x : Slot) :
    getLink x (enqueue id s) = getLink x s := rfl
@[simp] theorem getRing_enqueue (id : ProfileId) (u : Target) :
    getRing u (enqueue id s) = getRing u s := rfl
@[simp] theorem targetSettings_enqueue (id : ProfileId) (u : Target) :
    targetSettings u (enqueue id s) = targetSettings u s := rfl
@[simp] theorem stationSettings_enqueue (id : ProfileId) (j : Station) :
    stationSettings j (enqueue id s) = stationSettings j s := rfl

/-! ### touch -/

@[simp] theorem touch_now (c : CacheNo) : (touch c s).now = s.now := rfl
@[simp] theorem touch_boundary (c : CacheNo) : (touch c s).boundary = s.boundary := rfl
@[simp] theorem touch_coldReset (c : CacheNo) : (touch c s).coldReset = s.coldReset := rfl
@[simp] theorem touch_table (c : CacheNo) : (touch c s).table = s.table := rfl
@[simp] theorem touch_cache_slots (c : CacheNo) : (touch c s).cache.slots = s.cache.slots := rfl
@[simp] theorem touch_cache_queue (c : CacheNo) : (touch c s).cache.queue = s.cache.queue := rfl
@[simp] theorem touch_cache_unusable (c : CacheNo) :
    (touch c s).cache.unusable = s.cache.unusable := rfl
@[simp] theorem touch_cache_flight (c : CacheNo) : (touch c s).cache.flight = s.cache.flight := rfl
@[simp] theorem touch_cache_port (c : CacheNo) : (touch c s).cache.port = s.cache.port := rfl
@[simp] theorem touch_store (c : CacheNo) : (touch c s).store = s.store := rfl
@[simp] theorem touch_prediction (c : CacheNo) : (touch c s).prediction = s.prediction := rfl
@[simp] theorem touch_adaptation (c : CacheNo) : (touch c s).adaptation = s.adaptation := rfl
@[simp] theorem touch_stations (c : CacheNo) : (touch c s).stations = s.stations := rfl
@[simp] theorem touch_suppression (c : CacheNo) : (touch c s).suppression = s.suppression := rfl
@[simp] theorem touch_links (c : CacheNo) : (touch c s).links = s.links := rfl
@[simp] theorem touch_settings (c : CacheNo) : (touch c s).settings = s.settings := rfl
@[simp] theorem touch_port (c : CacheNo) : (touch c s).port = s.port := rfl
@[simp] theorem touch_pending (c : CacheNo) : (touch c s).pending = s.pending := rfl
@[simp] theorem getRecord_touch (c : CacheNo) (n : RecordNo) :
    getRecord n (touch c s) = getRecord n s := rfl
@[simp] theorem getLive_touch (c : CacheNo) (x : Slot) : getLive x (touch c s) = getLive x s := rfl
@[simp] theorem getAdapt_touch (c : CacheNo) (u : Target) :
    getAdapt u (touch c s) = getAdapt u s := rfl
@[simp] theorem getStation_touch (c : CacheNo) (j : Station) :
    getStation j (touch c s) = getStation j s := rfl
@[simp] theorem getSuppression_touch (c : CacheNo) (x : Slot) :
    getSuppression x (touch c s) = getSuppression x s := rfl
@[simp] theorem getLink_touch (c : CacheNo) (x : Slot) : getLink x (touch c s) = getLink x s := rfl
@[simp] theorem getRing_touch (c : CacheNo) (u : Target) :
    getRing u (touch c s) = getRing u s := rfl
@[simp] theorem targetSettings_touch (c : CacheNo) (u : Target) :
    targetSettings u (touch c s) = targetSettings u s := rfl
@[simp] theorem stationSettings_touch (c : CacheNo) (j : Station) :
    stationSettings j (touch c s) = stationSettings j s := rfl

/-! ### emptySlot -/

@[simp] theorem emptySlot_now (c : CacheNo) : (emptySlot c s).now = s.now := rfl
@[simp] theorem emptySlot_boundary (c : CacheNo) : (emptySlot c s).boundary = s.boundary := rfl
@[simp] theorem emptySlot_coldReset (c : CacheNo) : (emptySlot c s).coldReset = s.coldReset := rfl
@[simp] theorem emptySlot_table (c : CacheNo) : (emptySlot c s).table = s.table := rfl
@[simp] theorem emptySlot_cache_queue (c : CacheNo) :
    (emptySlot c s).cache.queue = s.cache.queue := rfl
@[simp] theorem emptySlot_cache_unusable (c : CacheNo) :
    (emptySlot c s).cache.unusable = s.cache.unusable := rfl
@[simp] theorem emptySlot_cache_flight (c : CacheNo) :
    (emptySlot c s).cache.flight = s.cache.flight := rfl
@[simp] theorem emptySlot_cache_port (c : CacheNo) :
    (emptySlot c s).cache.port = s.cache.port := rfl
@[simp] theorem emptySlot_store (c : CacheNo) : (emptySlot c s).store = s.store := rfl
@[simp] theorem emptySlot_prediction (c : CacheNo) :
    (emptySlot c s).prediction = s.prediction := rfl
@[simp] theorem emptySlot_adaptation (c : CacheNo) :
    (emptySlot c s).adaptation = s.adaptation := rfl
@[simp] theorem emptySlot_stations (c : CacheNo) : (emptySlot c s).stations = s.stations := rfl
@[simp] theorem emptySlot_suppression (c : CacheNo) :
    (emptySlot c s).suppression = s.suppression := rfl
@[simp] theorem emptySlot_links (c : CacheNo) : (emptySlot c s).links = s.links := rfl
@[simp] theorem emptySlot_settings (c : CacheNo) : (emptySlot c s).settings = s.settings := rfl
@[simp] theorem emptySlot_port (c : CacheNo) : (emptySlot c s).port = s.port := rfl
@[simp] theorem emptySlot_pending (c : CacheNo) : (emptySlot c s).pending = s.pending := rfl
@[simp] theorem getRecord_emptySlot (c : CacheNo) (n : RecordNo) :
    getRecord n (emptySlot c s) = getRecord n s := rfl
@[simp] theorem getLive_emptySlot (c : CacheNo) (x : Slot) :
    getLive x (emptySlot c s) = getLive x s := rfl
@[simp] theorem getAdapt_emptySlot (c : CacheNo) (u : Target) :
    getAdapt u (emptySlot c s) = getAdapt u s := rfl
@[simp] theorem getStation_emptySlot (c : CacheNo) (j : Station) :
    getStation j (emptySlot c s) = getStation j s := rfl
@[simp] theorem getSuppression_emptySlot (c : CacheNo) (x : Slot) :
    getSuppression x (emptySlot c s) = getSuppression x s := rfl
@[simp] theorem getLink_emptySlot (c : CacheNo) (x : Slot) :
    getLink x (emptySlot c s) = getLink x s := rfl
@[simp] theorem getRing_emptySlot (c : CacheNo) (u : Target) :
    getRing u (emptySlot c s) = getRing u s := rfl
@[simp] theorem targetSettings_emptySlot (c : CacheNo) (u : Target) :
    targetSettings u (emptySlot c s) = targetSettings u s := rfl
@[simp] theorem stationSettings_emptySlot (c : CacheNo) (j : Station) :
    stationSettings j (emptySlot c s) = stationSettings j s := rfl

/-! ### makeUsable -/

@[simp] theorem makeUsable_now (id : ProfileId) : (makeUsable id s).now = s.now := rfl
@[simp] theorem makeUsable_boundary (id : ProfileId) :
    (makeUsable id s).boundary = s.boundary := rfl
@[simp] theorem makeUsable_coldReset (id : ProfileId) :
    (makeUsable id s).coldReset = s.coldReset := rfl
@[simp] theorem makeUsable_table (id : ProfileId) : (makeUsable id s).table = s.table := rfl
@[simp] theorem makeUsable_cache_slots (id : ProfileId) :
    (makeUsable id s).cache.slots = s.cache.slots := rfl
@[simp] theorem makeUsable_cache_lru (id : ProfileId) :
    (makeUsable id s).cache.lru = s.cache.lru := rfl
@[simp] theorem makeUsable_cache_queue (id : ProfileId) :
    (makeUsable id s).cache.queue = s.cache.queue := rfl
@[simp] theorem makeUsable_cache_flight (id : ProfileId) :
    (makeUsable id s).cache.flight = s.cache.flight := rfl
@[simp] theorem makeUsable_cache_port (id : ProfileId) :
    (makeUsable id s).cache.port = s.cache.port := rfl
@[simp] theorem makeUsable_store (id : ProfileId) : (makeUsable id s).store = s.store := rfl
@[simp] theorem makeUsable_prediction (id : ProfileId) :
    (makeUsable id s).prediction = s.prediction := rfl
@[simp] theorem makeUsable_adaptation (id : ProfileId) :
    (makeUsable id s).adaptation = s.adaptation := rfl
@[simp] theorem makeUsable_stations (id : ProfileId) :
    (makeUsable id s).stations = s.stations := rfl
@[simp] theorem makeUsable_suppression (id : ProfileId) :
    (makeUsable id s).suppression = s.suppression := rfl
@[simp] theorem makeUsable_links (id : ProfileId) : (makeUsable id s).links = s.links := rfl
@[simp] theorem makeUsable_settings (id : ProfileId) :
    (makeUsable id s).settings = s.settings := rfl
@[simp] theorem makeUsable_port (id : ProfileId) : (makeUsable id s).port = s.port := rfl
@[simp] theorem makeUsable_pending (id : ProfileId) : (makeUsable id s).pending = s.pending := rfl
@[simp] theorem getRecord_makeUsable (id : ProfileId) (n : RecordNo) :
    getRecord n (makeUsable id s) = getRecord n s := rfl
@[simp] theorem getLive_makeUsable (id : ProfileId) (x : Slot) :
    getLive x (makeUsable id s) = getLive x s := rfl
@[simp] theorem getAdapt_makeUsable (id : ProfileId) (u : Target) :
    getAdapt u (makeUsable id s) = getAdapt u s := rfl
@[simp] theorem getStation_makeUsable (id : ProfileId) (j : Station) :
    getStation j (makeUsable id s) = getStation j s := rfl
@[simp] theorem getSuppression_makeUsable (id : ProfileId) (x : Slot) :
    getSuppression x (makeUsable id s) = getSuppression x s := rfl
@[simp] theorem getLink_makeUsable (id : ProfileId) (x : Slot) :
    getLink x (makeUsable id s) = getLink x s := rfl
@[simp] theorem getRing_makeUsable (id : ProfileId) (u : Target) :
    getRing u (makeUsable id s) = getRing u s := rfl
@[simp] theorem targetSettings_makeUsable (id : ProfileId) (u : Target) :
    targetSettings u (makeUsable id s) = targetSettings u s := rfl
@[simp] theorem stationSettings_makeUsable (id : ProfileId) (j : Station) :
    stationSettings j (makeUsable id s) = stationSettings j s := rfl

/-! ### setAnswer -/

@[simp] theorem setAnswer_now (slot : Slot) (a : Answer) : (setAnswer slot a s).now = s.now := rfl
@[simp] theorem setAnswer_boundary (slot : Slot) (a : Answer) :
    (setAnswer slot a s).boundary = s.boundary := rfl
@[simp] theorem setAnswer_coldReset (slot : Slot) (a : Answer) :
    (setAnswer slot a s).coldReset = s.coldReset := rfl
@[simp] theorem setAnswer_table (slot : Slot) (a : Answer) :
    (setAnswer slot a s).table = s.table := rfl
@[simp] theorem setAnswer_cache (slot : Slot) (a : Answer) :
    (setAnswer slot a s).cache = s.cache := rfl
@[simp] theorem setAnswer_store (slot : Slot) (a : Answer) :
    (setAnswer slot a s).store = s.store := rfl
@[simp] theorem setAnswer_prediction (slot : Slot) (a : Answer) :
    (setAnswer slot a s).prediction = s.prediction := rfl
@[simp] theorem setAnswer_adaptation (slot : Slot) (a : Answer) :
    (setAnswer slot a s).adaptation = s.adaptation := rfl
@[simp] theorem setAnswer_stations (slot : Slot) (a : Answer) :
    (setAnswer slot a s).stations = s.stations := rfl
@[simp] theorem setAnswer_suppression (slot : Slot) (a : Answer) :
    (setAnswer slot a s).suppression = s.suppression := rfl
@[simp] theorem setAnswer_links_beacon (slot : Slot) (a : Answer) :
    (setAnswer slot a s).links.beacon = s.links.beacon := rfl
@[simp] theorem setAnswer_settings (slot : Slot) (a : Answer) :
    (setAnswer slot a s).settings = s.settings := rfl
@[simp] theorem setAnswer_port (slot : Slot) (a : Answer) :
    (setAnswer slot a s).port = s.port := rfl
@[simp] theorem setAnswer_pending (slot : Slot) (a : Answer) :
    (setAnswer slot a s).pending = s.pending := rfl
@[simp] theorem getRecord_setAnswer (slot : Slot) (a : Answer) (n : RecordNo) :
    getRecord n (setAnswer slot a s) = getRecord n s := rfl
@[simp] theorem getLive_setAnswer (slot : Slot) (a : Answer) (x : Slot) :
    getLive x (setAnswer slot a s) = getLive x s := rfl
@[simp] theorem getAdapt_setAnswer (slot : Slot) (a : Answer) (u : Target) :
    getAdapt u (setAnswer slot a s) = getAdapt u s := rfl
@[simp] theorem getStation_setAnswer (slot : Slot) (a : Answer) (j : Station) :
    getStation j (setAnswer slot a s) = getStation j s := rfl
@[simp] theorem getSuppression_setAnswer (slot : Slot) (a : Answer) (x : Slot) :
    getSuppression x (setAnswer slot a s) = getSuppression x s := rfl
@[simp] theorem getRing_setAnswer (slot : Slot) (a : Answer) (u : Target) :
    getRing u (setAnswer slot a s) = getRing u s := rfl
@[simp] theorem targetSettings_setAnswer (slot : Slot) (a : Answer) (u : Target) :
    targetSettings u (setAnswer slot a s) = targetSettings u s := rfl
@[simp] theorem stationSettings_setAnswer (slot : Slot) (a : Answer) (j : Station) :
    stationSettings j (setAnswer slot a s) = stationSettings j s := rfl

/-! ### withQueue -/

@[simp] theorem withQueue_now (q : List Instr) : (s.withQueue q).now = s.now := rfl
@[simp] theorem withQueue_boundary (q : List Instr) : (s.withQueue q).boundary = s.boundary := rfl
@[simp] theorem withQueue_coldReset (q : List Instr) :
    (s.withQueue q).coldReset = s.coldReset := rfl
@[simp] theorem withQueue_table (q : List Instr) : (s.withQueue q).table = s.table := rfl
@[simp] theorem withQueue_cache (q : List Instr) : (s.withQueue q).cache = s.cache := rfl
@[simp] theorem withQueue_store (q : List Instr) : (s.withQueue q).store = s.store := rfl
@[simp] theorem withQueue_prediction (q : List Instr) :
    (s.withQueue q).prediction = s.prediction := rfl
@[simp] theorem withQueue_adaptation (q : List Instr) :
    (s.withQueue q).adaptation = s.adaptation := rfl
@[simp] theorem withQueue_stations (q : List Instr) : (s.withQueue q).stations = s.stations := rfl
@[simp] theorem withQueue_suppression (q : List Instr) :
    (s.withQueue q).suppression = s.suppression := rfl
@[simp] theorem withQueue_links (q : List Instr) : (s.withQueue q).links = s.links := rfl
@[simp] theorem withQueue_settings (q : List Instr) : (s.withQueue q).settings = s.settings := rfl
@[simp] theorem withQueue_port (q : List Instr) : (s.withQueue q).port = s.port := rfl
@[simp] theorem getRecord_withQueue (q : List Instr) (n : RecordNo) :
    getRecord n (s.withQueue q) = getRecord n s := rfl
@[simp] theorem getLive_withQueue (q : List Instr) (x : Slot) :
    getLive x (s.withQueue q) = getLive x s := rfl
@[simp] theorem getAdapt_withQueue (q : List Instr) (u : Target) :
    getAdapt u (s.withQueue q) = getAdapt u s := rfl
@[simp] theorem getStation_withQueue (q : List Instr) (j : Station) :
    getStation j (s.withQueue q) = getStation j s := rfl
@[simp] theorem getSuppression_withQueue (q : List Instr) (x : Slot) :
    getSuppression x (s.withQueue q) = getSuppression x s := rfl
@[simp] theorem getLink_withQueue (q : List Instr) (x : Slot) :
    getLink x (s.withQueue q) = getLink x s := rfl
@[simp] theorem getRing_withQueue (q : List Instr) (u : Target) :
    getRing u (s.withQueue q) = getRing u s := rfl
@[simp] theorem targetSettings_withQueue (q : List Instr) (u : Target) :
    targetSettings u (s.withQueue q) = targetSettings u s := rfl
@[simp] theorem stationSettings_withQueue (q : List Instr) (j : Station) :
    stationSettings j (s.withQueue q) = stationSettings j s := rfl

/-! ### endColdReset -/

@[simp] theorem endColdReset_now : (endColdReset s).now = s.now := rfl
@[simp] theorem endColdReset_boundary : (endColdReset s).boundary = s.boundary := rfl
@[simp] theorem endColdReset_table : (endColdReset s).table = s.table := rfl
@[simp] theorem endColdReset_cache : (endColdReset s).cache = s.cache := rfl
@[simp] theorem endColdReset_store : (endColdReset s).store = s.store := rfl
@[simp] theorem endColdReset_prediction : (endColdReset s).prediction = s.prediction := rfl
@[simp] theorem endColdReset_adaptation : (endColdReset s).adaptation = s.adaptation := rfl
@[simp] theorem endColdReset_stations : (endColdReset s).stations = s.stations := rfl
@[simp] theorem endColdReset_suppression : (endColdReset s).suppression = s.suppression := rfl
@[simp] theorem endColdReset_settings : (endColdReset s).settings = s.settings := rfl
@[simp] theorem endColdReset_port : (endColdReset s).port = s.port := rfl
@[simp] theorem endColdReset_pending : (endColdReset s).pending = s.pending := rfl
@[simp] theorem getRecord_endColdReset (n : RecordNo) :
    getRecord n (endColdReset s) = getRecord n s := rfl
@[simp] theorem getLive_endColdReset (x : Slot) : getLive x (endColdReset s) = getLive x s := rfl
@[simp] theorem getAdapt_endColdReset (u : Target) :
    getAdapt u (endColdReset s) = getAdapt u s := rfl
@[simp] theorem getStation_endColdReset (j : Station) :
    getStation j (endColdReset s) = getStation j s := rfl
@[simp] theorem getSuppression_endColdReset (x : Slot) :
    getSuppression x (endColdReset s) = getSuppression x s := rfl
@[simp] theorem getRing_endColdReset (u : Target) : getRing u (endColdReset s) = getRing u s := rfl
@[simp] theorem targetSettings_endColdReset (u : Target) :
    targetSettings u (endColdReset s) = targetSettings u s := rfl
@[simp] theorem stationSettings_endColdReset (j : Station) :
    stationSettings j (endColdReset s) = stationSettings j s := rfl

/-! ### lowerCounts -/

@[simp] theorem lowerCounts_now : (lowerCounts s).now = s.now := rfl
@[simp] theorem lowerCounts_boundary : (lowerCounts s).boundary = s.boundary := rfl
@[simp] theorem lowerCounts_coldReset : (lowerCounts s).coldReset = s.coldReset := rfl
@[simp] theorem lowerCounts_table : (lowerCounts s).table = s.table := rfl
@[simp] theorem lowerCounts_cache : (lowerCounts s).cache = s.cache := rfl
@[simp] theorem lowerCounts_store : (lowerCounts s).store = s.store := rfl
@[simp] theorem lowerCounts_prediction : (lowerCounts s).prediction = s.prediction := rfl
@[simp] theorem lowerCounts_adaptation_steps :
    (lowerCounts s).adaptation.steps = s.adaptation.steps := rfl
@[simp] theorem lowerCounts_adaptation_openMoment :
    (lowerCounts s).adaptation.openMoment = s.adaptation.openMoment := rfl
@[simp] theorem lowerCounts_adaptation_gap :
    (lowerCounts s).adaptation.gap = s.adaptation.gap := rfl
@[simp] theorem lowerCounts_links : (lowerCounts s).links = s.links := rfl
@[simp] theorem lowerCounts_settings : (lowerCounts s).settings = s.settings := rfl
@[simp] theorem lowerCounts_port : (lowerCounts s).port = s.port := rfl
@[simp] theorem lowerCounts_pending : (lowerCounts s).pending = s.pending := rfl
@[simp] theorem getRecord_lowerCounts (n : RecordNo) :
    getRecord n (lowerCounts s) = getRecord n s := rfl
@[simp] theorem getLive_lowerCounts (x : Slot) : getLive x (lowerCounts s) = getLive x s := rfl
@[simp] theorem getLink_lowerCounts (x : Slot) : getLink x (lowerCounts s) = getLink x s := rfl
@[simp] theorem getRing_lowerCounts (u : Target) : getRing u (lowerCounts s) = getRing u s := rfl
@[simp] theorem targetSettings_lowerCounts (u : Target) :
    targetSettings u (lowerCounts s) = targetSettings u s := rfl
@[simp] theorem stationSettings_lowerCounts (j : Station) :
    stationSettings j (lowerCounts s) = stationSettings j s := rfl

/-! ### markDue -/

@[simp] theorem markDue_now : (markDue s).now = s.now := rfl
@[simp] theorem markDue_boundary : (markDue s).boundary = s.boundary := rfl
@[simp] theorem markDue_coldReset : (markDue s).coldReset = s.coldReset := rfl
@[simp] theorem markDue_table : (markDue s).table = s.table := rfl
@[simp] theorem markDue_cache : (markDue s).cache = s.cache := rfl
@[simp] theorem markDue_store : (markDue s).store = s.store := rfl
@[simp] theorem markDue_prediction : (markDue s).prediction = s.prediction := rfl
@[simp] theorem markDue_adaptation_steps : (markDue s).adaptation.steps = s.adaptation.steps := rfl
@[simp] theorem markDue_adaptation_openMoment :
    (markDue s).adaptation.openMoment = s.adaptation.openMoment := rfl
@[simp] theorem markDue_adaptation_gap : (markDue s).adaptation.gap = s.adaptation.gap := rfl
@[simp] theorem markDue_links : (markDue s).links = s.links := rfl
@[simp] theorem markDue_settings : (markDue s).settings = s.settings := rfl
@[simp] theorem markDue_port : (markDue s).port = s.port := rfl
@[simp] theorem markDue_pending : (markDue s).pending = s.pending := rfl
@[simp] theorem getRecord_markDue (n : RecordNo) : getRecord n (markDue s) = getRecord n s := rfl
@[simp] theorem getLive_markDue (x : Slot) : getLive x (markDue s) = getLive x s := rfl
@[simp] theorem getLink_markDue (x : Slot) : getLink x (markDue s) = getLink x s := rfl
@[simp] theorem getRing_markDue (u : Target) : getRing u (markDue s) = getRing u s := rfl
@[simp] theorem targetSettings_markDue (u : Target) :
    targetSettings u (markDue s) = targetSettings u s := rfl
@[simp] theorem stationSettings_markDue (j : Station) :
    stationSettings j (markDue s) = stationSettings j s := rfl

/-! ### openFrame -/

@[simp] theorem openFrame_now : (openFrame s).now = s.now := rfl
@[simp] theorem openFrame_boundary : (openFrame s).boundary = s.boundary := rfl
@[simp] theorem openFrame_coldReset : (openFrame s).coldReset = s.coldReset := rfl
@[simp] theorem openFrame_table : (openFrame s).table = s.table := rfl
@[simp] theorem openFrame_cache : (openFrame s).cache = s.cache := rfl
@[simp] theorem openFrame_store : (openFrame s).store = s.store := rfl
@[simp] theorem openFrame_prediction : (openFrame s).prediction = s.prediction := rfl
@[simp] theorem openFrame_adaptation : (openFrame s).adaptation = s.adaptation := rfl
@[simp] theorem openFrame_stations : (openFrame s).stations = s.stations := rfl
@[simp] theorem openFrame_suppression : (openFrame s).suppression = s.suppression := rfl
@[simp] theorem openFrame_settings : (openFrame s).settings = s.settings := rfl
@[simp] theorem openFrame_port : (openFrame s).port = s.port := rfl
@[simp] theorem openFrame_pending : (openFrame s).pending = s.pending := rfl
@[simp] theorem getRecord_openFrame (n : RecordNo) :
    getRecord n (openFrame s) = getRecord n s := rfl
@[simp] theorem getLive_openFrame (x : Slot) : getLive x (openFrame s) = getLive x s := rfl
@[simp] theorem getAdapt_openFrame (u : Target) : getAdapt u (openFrame s) = getAdapt u s := rfl
@[simp] theorem getStation_openFrame (j : Station) :
    getStation j (openFrame s) = getStation j s := rfl
@[simp] theorem getSuppression_openFrame (x : Slot) :
    getSuppression x (openFrame s) = getSuppression x s := rfl
@[simp] theorem getRing_openFrame (u : Target) : getRing u (openFrame s) = getRing u s := rfl
@[simp] theorem targetSettings_openFrame (u : Target) :
    targetSettings u (openFrame s) = targetSettings u s := rfl
@[simp] theorem stationSettings_openFrame (j : Station) :
    stationSettings j (openFrame s) = stationSettings j s := rfl

end Sys2Proof.Machine
end

