-- ==== Sys2Proof/Laws/Tables.lean ====
section
/-! SUPPORT. Reading and writing the numbered tables: a read after a write, tables equal by their
entries, and what the searches over a table answer. -/

namespace Sys2Proof.Machine

variable {α β : Type} {n : Nat}

@[simp] theorem tget_tset_self (t : Vector α n) (i : Fin n) (v : α) : tget (tset t i v) i = v := by
  simp [tget, tset]

theorem tget_tset_of_ne (t : Vector α n) {i j : Fin n} (v : α) (h : j ≠ i) :
    tget (tset t i v) j = tget t j := by
  have h' : i.val ≠ j.val := fun e => h (Fin.ext e.symm)
  simp [tget, tset, h']

theorem tget_tset (t : Vector α n) (i j : Fin n) (v : α) :
    tget (tset t i v) j = if j = i then v else tget t j := by
  by_cases h : j = i
  · subst h; simp
  · simp [h, tget_tset_of_ne t v h]

@[simp] theorem tget_tmod_self (t : Vector α n) (i : Fin n) (f : α → α) :
    tget (tmod t i f) i = f (tget t i) := tget_tset_self t i _

theorem tget_tmod_of_ne (t : Vector α n) {i j : Fin n} (f : α → α) (h : j ≠ i) :
    tget (tmod t i f) j = tget t j := tget_tset_of_ne t _ h

theorem tget_tmod (t : Vector α n) (i j : Fin n) (f : α → α) :
    tget (tmod t i f) j = if j = i then f (tget t j) else tget t j := by
  by_cases h : j = i
  · subst h; simp
  · simp [h, tget_tmod_of_ne t f h]

@[simp] theorem tget_map (t : Vector α n) (f : α → β) (i : Fin n) :
    tget (t.map f) i = f (tget t i) := by
  simp [tget]

@[simp] theorem tget_replicate (v : α) (i : Fin n) : tget (Vector.replicate n v) i = v := by
  simp [tget]

/-- Tables are equal when their entries are. -/
theorem table_ext {t u : Vector α n} (h : ∀ i, tget t i = tget u i) : t = u := by
  apply Vector.ext
  intro i hi
  exact h ⟨i, hi⟩

/-- Writing back the entry that stands changes nothing. -/
@[simp] theorem tset_tget (t : Vector α n) (i : Fin n) : tset t i (tget t i) = t := by
  apply table_ext
  intro j
  rw [tget_tset]
  split
  · next h => rw [h]
  · rfl

/-- A change that leaves the entry as it stands leaves the table. -/
theorem tmod_of_fixed (t : Vector α n) (i : Fin n) (f : α → α) (h : f (tget t i) = tget t i) :
    tmod t i f = t := by
  unfold tmod
  rw [h, tset_tget]

@[simp] theorem tset_tset (t : Vector α n) (i : Fin n) (v w : α) :
    tset (tset t i v) i w = tset t i w := by
  apply table_ext
  intro j
  by_cases h : j = i
  · subst h; simp
  · simp [tget_tset_of_ne _ _ h]

/-- Two changes of one entry are one. -/
@[simp] theorem tmod_tmod (t : Vector α n) (i : Fin n) (f g : α → α) :
    tmod (tmod t i f) i g = tmod t i (fun x => g (f x)) := by
  simp [tmod]

@[simp] theorem mem_indicesWhere (t : Vector α n) (p : α → Bool) (i : Fin n) :
    i ∈ indicesWhere t p ↔ p (tget t i) = true := by
  simp [indicesWhere]

theorem indicesWhere_nodup (t : Vector α n) (p : α → Bool) : (indicesWhere t p).Nodup :=
  (List.nodup_finRange n).filter _

/-- A search that finds a number finds one whose entry satisfies the test. -/
theorem firstWhere_holds {t : Vector α n} {p : α → Bool} {i : Fin n}
    (h : firstWhere t p = some i) : p (tget t i) = true := by
  have := List.find?_some (p := fun j => p (tget t j)) h
  exact this

/-- A search finds no number exactly where no entry satisfies the test. -/
theorem firstWhere_none (t : Vector α n) (p : α → Bool) :
    firstWhere t p = none ↔ ∀ i, p (tget t i) = false := by
  simp [firstWhere, List.find?_eq_none]

/-- The number a search finds is the lowest. -/
theorem firstWhere_lowest {t : Vector α n} {p : α → Bool} {i : Fin n}
    (h : firstWhere t p = some i) (j : Fin n) (hj : j < i) : p (tget t j) = false := by
  unfold firstWhere at h
  rw [List.find?_eq_some_iff_append] at h
  obtain ⟨-, as, bs, hab, hall⟩ := h
  have hsorted : (List.finRange n).Pairwise (· < ·) := List.pairwise_lt_finRange n
  have hmem : j ∈ as ++ i :: bs := hab ▸ List.mem_finRange j
  rw [hab, List.pairwise_append] at hsorted
  rcases List.mem_append.mp hmem with hj' | hj'
  · simpa using hall j hj'
  · rcases List.mem_cons.mp hj' with rfl | hj''
    · exact absurd hj (lt_irrefl _)
    · have := (List.pairwise_cons.mp hsorted.2.1).1 j hj''
      exact absurd (lt_trans hj this) (lt_irrefl _)

end Sys2Proof.Machine
end

