-- ==== Sys2Proof/Laws/Ops.lean ====
section
/-! SUPPORT. What each shared operation does, said once: a running part, a management frame, a
message in its window, retirement, triggers, the entry actions of presence and lock, the arbiter,
the banks, clipping and rounding. The provers cite these in place of unfolding the operation. -/

namespace Sys2Proof.Machine

variable {s : State}

/-! ### A running part and the management port -/

/-- On a running part a command does its change. -/
theorem onPart_of_running (held f : State → State) (h : Running s) :
    onPart held f s = .next (f s) := by
  have h' : s.coldReset = none := h
  simp [onPart, h']

/-- On a running part a command that only such a part takes does its change. -/
theorem running_of_running (f : State → State) (h : Running s) : running f s = .next (f s) :=
  onPart_of_running id f h

/-- The outcome of a command on a part, by the cold reset that holds it. -/
theorem onPart_cases (held f : State → State) (s : State) :
    (s.coldReset = none ∧ onPart held f s = .next (f s)) ∨
    (s.coldReset = some .restartCold ∧ onPart held f s = .next (f (endColdReset s))) ∨
    (∃ c, s.coldReset = some c ∧ c ≠ .restartCold ∧ onPart held f s = .next (held s)) := by
  unfold onPart
  rcases h : s.coldReset with _ | c
  · exact .inl ⟨rfl, rfl⟩
  · cases c with
    | restartCold => exact .inr (.inl ⟨rfl, rfl⟩)
    | powerUp => exact .inr (.inr ⟨_, rfl, by decide, rfl⟩)
    | resetLine => exact .inr (.inr ⟨_, rfl, by decide, rfl⟩)
    | restartWarm => exact .inr (.inr ⟨_, rfl, by decide, rfl⟩)
    | warmLine => exact .inr (.inr ⟨_, rfl, by decide, rfl⟩)

/-- Where no record's time event is due, none is taken. -/
theorem takeRecordEvents_of_none (h : NoEventDue s) : takeRecordEvents s = s := by
  unfold takeRecordEvents
  generalize List.finRange 128 = l
  induction l with
  | nil => rfl
  | cons r l ih => simpa [h r] using ih

/-- A fetch start does nothing where it is not due, and is otherwise the start of the queue's head
into its target slot; then none is due. -/
theorem fetchStart_cases (s : State) :
    (startDue s = false ∧ fetchStart s = s) ∨
    ∃ id rest c, startDue s = true ∧ s.cache.flight = none ∧ s.cache.port = .owned ∧
      s.cache.queue = id :: rest ∧ fetchTarget s = some c ∧ fetchStart s = fetchInto c id rest s := by
  unfold startDue fetchStart
  rcases hf : s.cache.flight with _ | f
  · cases hp : s.cache.port
    · rcases hq : s.cache.queue with _ | ⟨id, rest⟩
      · exact .inl ⟨by simp, rfl⟩
      · rcases ht : fetchTarget s with _ | c
        · exact .inl ⟨by simp, rfl⟩
        · exact .inr ⟨id, rest, c, by simp, rfl, rfl, rfl, rfl, rfl⟩
    · exact .inl ⟨by simp, rfl⟩
    · exact .inl ⟨by simp, rfl⟩
  · exact .inl ⟨by simp, rfl⟩

theorem fetchStart_of_notDue (h : startDue s = false) : fetchStart s = s := by
  rcases fetchStart_cases s with ⟨-, hs⟩ | ⟨_, _, _, hd, -⟩
  · exact hs
  · rw [h] at hd; exact absurd hd (by decide)

/-- After a fetch start none is due. -/
@[simp] theorem startDue_fetchStart (s : State) : startDue (fetchStart s) = false := by
  rcases fetchStart_cases s with ⟨hd, hs⟩ | ⟨_, _, _, -, -, -, -, -, hs⟩
  · rw [hs, hd]
  · rw [hs]; simp [startDue, fetchInto]

/-- Where nothing has still to come before a command, nothing comes. -/
theorem takeMoment_of_ready (he : NoEventDue s) (hs : startDue s = false) : takeMoment s = s := by
  unfold takeMoment
  rw [takeRecordEvents_of_none he, fetchStart_of_notDue hs]

/-- A fetch start comes before a command that names a profile unless it is not due or yields. -/
theorem takeMomentFor_of_none (id : ProfileId) (he : NoEventDue s)
    (hs : startDue s = false ∨ startYields id s = true) : takeMomentFor id s = s := by
  unfold takeMomentFor
  rw [takeRecordEvents_of_none he]
  rcases hs with hs | hs
  · rw [takeMoment_of_ready he hs, ite_self]
  · rw [if_pos hs]

/-- On a running part with nothing to come before it a command does its change. -/
theorem afterEvents_of_ready (f : State → State) (h : Ready s) : afterEvents f s = .next (f s) := by
  unfold afterEvents
  rw [running_of_running _ h.1, takeMoment_of_ready h.2.1 h.2.2]

/-- What a frame does on a running part, by what comes before it. -/
theorem manageAfter_of_running {α : Type} (before : State → State) (p : Payload α)
    (f : α → State → State) (h : Running s) (hb : before s = s) :
    manageAfter before p f s = .next (takeFrame p f s) := by
  unfold manageAfter
  rw [onPart_of_running _ _ h, hb]

/-- A frame that is taken does its command on the state in which its transaction has ended. -/
theorem manage_of_fields {α : Type} (a : α) (f : α → State → State) (h : TakesFrames s) :
    manage (.fields a) f s = .next (f a (endTransaction s)) := by
  unfold manage
  rw [manageAfter_of_running _ _ _ h.1.1 (takeMoment_of_ready h.1.2.1 h.1.2.2)]
  simp [takeFrame, h.2]

/-- A frame of the wrong length is answered BAD-ARGUMENT. -/
theorem manage_of_wrongLength {α : Type} (f : α → State → State) (h : TakesFrames s) :
    manage (.wrongLength : Payload α) f s =
      .next (respond (bare .badArgument) (endTransaction s)) := by
  unfold manage
  rw [manageAfter_of_running _ _ _ h.1.1 (takeMoment_of_ready h.1.2.1 h.1.2.2)]
  simp [takeFrame, h.2]

/-- A frame that is refused only ends its transaction. -/
theorem manage_of_refused {α : Type} (p : Payload α) (f : α → State → State) (h : Ready s)
    (hr : frameRefused s = true) : manage p f s = .next (endTransaction s) := by
  unfold manage
  rw [manageAfter_of_running _ _ _ h.1 (takeMoment_of_ready h.2.1 h.2.2)]
  simp [takeFrame, hr]

/-- A frame that comes while a line or the supply holds the part only ends its transaction. -/
theorem manage_of_held {α : Type} (p : Payload α) (f : α → State → State)
    (h : s.coldReset = some .resetLine ∨ s.coldReset = some .powerUp) :
    manage p f s = .next (endTransaction s) := by
  rcases h with h | h <;> simp [manage, manageAfter, onPart, h]

/-- A fetch start yields to a command by the profile that the command names. -/
theorem yieldsTo_of_some {c : Instr} {id : ProfileId} (h : namedProfile c = some id) (s : State) :
    yieldsTo c s = startYields id s := by
  unfold yieldsTo
  rw [h]

theorem yieldsTo_of_none {c : Instr} (h : namedProfile c = none) (s : State) :
    yieldsTo c s = false := by
  unfold yieldsTo
  rw [h]

/-- What comes before a DROP stands where nothing has to come before it. -/
theorem beforeDrop_of_none (p : Payload Half) (he : NoEventDue s)
    (hs : NoStartBefore (.drop p) s) : beforeDrop p s = s := by
  have hm : namedProfile (.drop p) = none → takeMoment s = s := fun h =>
    takeMoment_of_ready he (hs.resolve_right (by rw [yieldsTo_of_none h]; exact Bool.false_ne_true))
  cases p with
  | wrongLength => exact hm rfl
  | fields h =>
    have hn : namedProfile (.drop (.fields h)) = profileOf h := rfl
    rcases hp : profileOf h with _ | id
    · rw [hp] at hn
      simp only [beforeDrop, hp]
      exact hm hn
    · rw [hp] at hn
      rw [NoStartBefore, yieldsTo_of_some hn] at hs
      simp only [beforeDrop, hp]
      exact takeMomentFor_of_none id he hs

/-- A response after the end of a transaction is a reply. -/
theorem respond_endTransaction (r : Response) (s : State) :
    respond r (endTransaction s) = replied r s := rfl

/-- A command that begins after the end of its transaction has begun. -/
theorem execute_endTransaction (e : Executing) (s : State) :
    execute e (endTransaction s) = begun e s := rfl

/-- A waiting command that finishes at an access has completed. -/
theorem finish_portAccess (r : Response) (s : State) :
    finish r (portAccess s) = completed r s := rfl

/-! ### Windows -/

theorem mem_slotsAt (w : Nat) (slot : Slot) : slot ∈ slotsAt w ↔ position slot = w := by
  simp [slotsAt]

/-- The upstream phase at a slot's place stands open where it has ended on no row. -/
theorem phaseOpen_iff (slot : Slot) (s : State) : phaseOpen slot s = true ↔
    ∀ x : Slot, position x = position slot → (getLink x s).window.isUpstream = true := by
  simp [phaseOpen, mem_slotsAt]

/-- A message that is heard does its change. -/
theorem inWindow_of_listening (slot : Slot) (f : State → State)
    (hp : ∀ x : Slot, position x = position slot → (getLink x s).window.isUpstream = true)
    (h : (getLink slot s).window = .upstream none) : inWindow slot f s = f s := by
  unfold inWindow
  rw [if_pos ⟨(phaseOpen_iff slot s).mpr hp, h⟩]

/-- A message that is not heard does nothing. -/
theorem inWindow_of_unheard (slot : Slot) (f : State → State)
    (h : phaseOpen slot s = false ∨ (getLink slot s).window ≠ .upstream none) :
    inWindow slot f s = s := by
  unfold inWindow
  rw [if_neg]
  rintro ⟨hp, hw⟩
  rcases h with h | h
  · rw [h] at hp; exact absurd hp (by decide)
  · exact h hw

/-- The answer to a message from an ABSENT slot. -/
theorem answerIfPresent_of_absent (slot : Slot) (f : State → Reply × State)
    (h : (getLink slot s).effective = .absent) :
    answerIfPresent slot f s = (.notPresent, s) := by
  simp [answerIfPresent, h]

/-- The answer to a message from a PRESENT slot. -/
theorem answerIfPresent_of_present (slot : Slot) (f : State → Reply × State)
    (h : (getLink slot s).effective = .present) : answerIfPresent slot f s = f s := by
  simp [answerIfPresent, h]

/-! ### What is due -/

/-- Where nothing is due, nothing is taken. -/
theorem takeDue_of_nothingDue (h : NothingDue s) : takeDue s = s := by
  unfold takeDue
  rw [takeMoment_of_ready h.2.1 h.2.2]
  simp [takeBoundary, h.1]

/-- Where nothing is due before a NOTICE, nothing is taken. -/
theorem takeDueFor_of_none (slot : Slot) (m : NoticeFields)
    (h : (s.boundary = .quiet ∧ NoEventDue s) ∧ NoStartBefore (.notice slot m) s) :
    takeDueFor m.profile s = s := by
  unfold takeDueFor
  rw [takeMomentFor_of_none m.profile h.1.2
    (by simpa [NoStartBefore, yieldsTo, namedProfile] using h.2)]
  simp [takeBoundary, h.1.1]

/-! ### The windows in their order -/

/-- The end of an upstream phase passes a window that is over. -/
theorem upstreamPhaseEnd_of_over (slot : Slot) (h : (getLink slot s).window = .over) :
    upstreamPhaseEnd slot s = s := by
  simp [upstreamPhaseEnd, h]

/-- A FEED passes a window that is over. -/
theorem sendReady_of_over (slot : Slot) (h : (getLink slot s).window = .over) :
    sendReady slot s = s := by
  simp [sendReady, h]

/-- A fold over slots stands where each of its steps does. -/
theorem foldl_slots_of_fixed (f : Slot → State → State) (l : List Slot)
    (h : ∀ slot ∈ l, f slot s = s) : l.foldl (fun s slot => f slot s) s = s := by
  induction l with
  | nil => rfl
  | cons a l ih =>
    rw [List.foldl_cons, h a (List.mem_cons_self ..)]
    exact ih fun x hx => h x (List.mem_cons_of_mem _ hx)

/-- Where the upstream phases of a window have ended, their end changes nothing. -/
theorem endPhases_of_ended (w : Nat)
    (h : ∀ x : Slot, position x = w → (getLink x s).window.isUpstream = false) :
    endPhases w s = s := by
  refine foldl_slots_of_fixed endPhase _ fun x hx => ?_
  simp [endPhase, h x ((mem_slotsAt w x).mp hx)]

/-- An evaluation with no read to make stands when its reads are made. -/
theorem readAll_of_nothing_waiting (e : Evaluation) (c : CouplingStore) (h : e.waiting = []) :
    e.readAll c = e := by
  unfold Evaluation.readAll
  rw [h]

/-- The reads made so that a target's evaluation can end: those of the targets up to it (R73). -/
theorem readThrough_evaluations (t : Target) (s : State) :
    (readThrough t s).prediction.evaluations =
      s.prediction.evaluations.map fun e => if e.target ≤ t then e.readAll s.store else e := by
  unfold readThrough
  split
  · rfl
  · rename_i h
    rw [eq_comm, List.map_congr_left (g := id), List.map_id]
    intro e he
    split
    · rename_i hle
      refine readAll_of_nothing_waiting e s.store ?_
      by_contra hw
      exact h (List.any_eq_true.mpr ⟨e, he, by simp [hle, hw]⟩)
    · rfl

/-- Where no slot of a window waits for its evaluation, the evaluations' end changes nothing. -/
theorem endEvaluations_of_ended (w : Nat)
    (h : ∀ x : Slot, position x = w → (getLink x s).window.isEvaluating = false) :
    endEvaluations w s = s := by
  refine foldl_slots_of_fixed endSlotEvaluation _ fun x hx => ?_
  simp [endSlotEvaluation, h x ((mem_slotsAt w x).mp hx)]

/-- Where the upstream phases of an evaluation's window have ended, its turnaround has begun. -/
theorem beginTurnaround_of_begun (t : Target) (h : TurnaroundBegun t s) :
    beginTurnaround t s = s := by
  unfold beginTurnaround
  split
  · rename_i slot ht
    split
    · exact endPhases_of_ended _ fun x hx => h slot ht ‹_› x hx
    · rfl
  · rfl

/-- Where the turnaround of its window has begun, a grant serves the next read alone. -/
theorem readInTurnaround_of_begun (h : ∀ t : Target, nextReader s = some t → TurnaroundBegun t s) :
    readInTurnaround s = predictionRead s := by
  unfold readInTurnaround
  split
  · rename_i t ht
    rw [beginTurnaround_of_begun t (h t ht)]
  · rename_i hn
    have hr : hasReads s = false := by
      simp only [nextReader, Option.map_eq_none_iff, List.find?_eq_none] at hn
      simpa [hasReads] using hn
    simp [predictionRead, hr]

/-- An evaluation that cannot end does not. -/
theorem evaluationEnd_of_not_canEnd (t : Target) (h : canEnd t s = false) :
    evaluationEnd t s = s := by
  unfold evaluationEnd
  unfold canEnd at h
  cases hf : findEvaluation t s with
  | none => rfl
  | some e =>
    simp only [hf, Option.any_some, Bool.and_eq_false_iff, decide_eq_false_iff_not,
      Option.isSome_eq_false_iff, Option.isNone_iff_eq_none] at h
    cases hw : e.waiting with
    | cons x xs => simp [endOf, hw]
    | nil =>
      rcases h with h | h
      · exact absurd hw h
      · simp [endOf, hw, h]

/-- Where the turnaround of its window has begun, an evaluation ends alone. -/
theorem endInTurnaround_of_begun (t : Target) (h : TurnaroundBegun t s) :
    endInTurnaround t s = evaluationEnd t s := by
  unfold endInTurnaround
  split
  · rw [beginTurnaround_of_begun t h]
  · rename_i hc
    exact (evaluationEnd_of_not_canEnd t (by simpa using hc)).symm

/-- Where a window's FEED phase has begun on every row and no evaluation is waited for, its
beginning changes nothing. -/
theorem openFeedPhases_of_open (w : Nat)
    (hu : ∀ x : Slot, position x = w → (getLink x s).window.isUpstream = false)
    (he : ∀ x : Slot, position x = w → (getLink x s).window.isEvaluating = false) :
    openFeedPhases w s = s := by
  unfold openFeedPhases
  rw [endPhases_of_ended w hu, endEvaluations_of_ended w he]

/-- Where a window is over on every row, running it changes nothing. -/
theorem runWindow_of_over (w : Nat)
    (h : ∀ x : Slot, position x = w → (getLink x s).window = .over) :
    runWindow w s = s := by
  unfold runWindow
  rw [openFeedPhases_of_open w (fun x hx => by rw [h x hx]; rfl) fun x hx => by rw [h x hx]; rfl]
  exact foldl_slots_of_fixed sendReady _ fun x hx =>
    sendReady_of_over x (h x ((mem_slotsAt w x).mp hx))

/-- Where the windows below w are over, running them changes nothing. -/
theorem runWindows_of_over (w : Nat)
    (h : ∀ x : Slot, position x < w → (getLink x s).window = .over) :
    runWindows w s = s := by
  induction w with
  | zero => rfl
  | succ w ih =>
    unfold runWindows
    rw [ih fun x hx => h x (by omega)]
    exact runWindow_of_over w fun x hx => h x (by omega)

/-- Where the place of an event of a slot's window has come and the windows before are over, the
event does its change. -/
theorem inPlace_of_inPlace (p : Place) (slot : Slot) (f : State → State)
    (h : InPlace p slot s) : inPlace p slot f s = f s := by
  unfold inPlace
  rw [if_pos h.2, runWindows_of_over _ h.1]

/-- On a part in which a slot's window has its turn, an event of the window does its change. -/
theorem inTurn_of_inTurn (p : Place) (slot : Slot) (f : State → State)
    (h : InTurn p slot s) : inTurn p slot f s = .next (f s) := by
  unfold inTurn
  rw [running_of_running _ h.1, takeDue_of_nothingDue h.2.1, inPlace_of_inPlace _ _ _ h.2.2]

/-- A NOTICE that is received is taken. -/
theorem execNotice_of_listensFor (slot : Slot) (m : NoticeFields) (h : ListensFor slot m s) :
    execNotice slot m s = .next (takeNotice slot m s) := by
  unfold execNotice
  rw [running_of_running _ h.1, takeDueFor_of_none slot m ⟨h.2.1, h.2.2.1⟩,
    inPlace_of_inPlace _ _ _ h.2.2.2.1,
    inWindow_of_listening _ _ h.2.2.2.2.2 h.2.2.2.2.1]

/-- Before its place in the frame an event of a window is none. -/
theorem inTurn_of_early (p : Place) (slot : Slot) (f : State → State) (h : Running s)
    (hd : NothingDue s) (hp : placeCome p slot s = false) : inTurn p slot f s = .next s := by
  unfold inTurn
  rw [running_of_running _ h, takeDue_of_nothingDue hd]
  simp [inPlace, hp]

/-! ### Records -/

@[simp] theorem getRecord_setRecord_self (r : RecordNo) (v : SourceRecord) (s : State) :
    getRecord r (setRecord r v s) = v := by simp [getRecord, setRecord]

theorem getRecord_setRecord (r q : RecordNo) (v : SourceRecord) (s : State) :
    getRecord q (setRecord r v s) = if q = r then v else getRecord q s := by
  simp [getRecord, setRecord, tget_tset]

theorem getLive_modLive (slot x : Slot) (f : Nat → Nat) (s : State) :
    getLive x (modLive slot f s) = if x = slot then f (getLive x s) else getLive x s := by
  simp [getLive, modLive, tget_tmod]

theorem slots_modCount (id : ProfileId) (f : Nat → Nat) (s : State) (c : CacheNo) :
    tget (modCount id f s).cache.slots c = (tget s.cache.slots c).mapCount id f := by
  simp [modCount]

theorem getAdapt_modAdapt (t u : Target) (f : AdaptRecord → AdaptRecord) (s : State) :
    getAdapt u (modAdapt t f s) = if u = t then f (getAdapt u s) else getAdapt u s := by
  simp [getAdapt, modAdapt, tget_tmod]

theorem getStation_modStation (k j : Station) (f : StationState → StationState) (s : State) :
    getStation j (modStation k f s) = if j = k then f (getStation j s) else getStation j s := by
  simp [getStation, modStation, tget_tmod]

theorem getSuppression_modSuppression (slot x : Slot)
    (f : SuppressionRecord → SuppressionRecord) (s : State) :
    getSuppression x (modSuppression slot f s) =
      if x = slot then f (getSuppression x s) else getSuppression x s := by
  simp [getSuppression, modSuppression, tget_tmod]

theorem getLink_modLink (slot x : Slot) (f : LinkSlot → LinkSlot) (s : State) :
    getLink x (modLink slot f s) = if x = slot then f (getLink x s) else getLink x s := by
  simp [getLink, modLink, tget_tmod]

theorem getRing_setRing (t u : Target) (l : List EvalRecord) (s : State) :
    getRing u (setRing t l s) = if u = t then l else getRing u s := by
  simp [getRing, setRing, tget_tset]

/-- Retirement frees its record and lowers its slot's live count and its profile's reference count;
nothing else changes. -/
theorem retire_spec (r : RecordNo) (s : State) : RetiredOnly r s (retire r s) := by
  refine ⟨by simp [retire], ?_, ?_, ?_, rfl⟩
  · intro q hq
    simp [retire, getRecord_setRecord, hq]
  · intro x
    simp [retire, getLive_modLive]
  · intro c
    simp [retire, slots_modCount]

/-- A live record's state is set from start, E and now, or the record is retired. -/
theorem settleRecord_cases (r : RecordNo) (s : State) :
    (∃ st, (getRecord r s).stateAt s.now = some st ∧
      settleRecord r s = setRecord r { getRecord r s with state := st } s) ∨
    ((getRecord r s).stateAt s.now = none ∧ settleRecord r s = retire r s) := by
  unfold settleRecord
  rcases h : (getRecord r s).stateAt s.now with _ | st
  · exact .inr ⟨rfl, rfl⟩
  · exact .inl ⟨st, rfl, rfl⟩

/-! ### Presence, lock and suppression -/

/-- A change of presence, by what becomes of the effective state. -/
theorem changePresence_cases (slot : Slot) (f : LinkSlot → LinkSlot) (s : State) :
    ((f (getLink slot s)).effective = (getLink slot s).effective ∧
      changePresence slot f s = modLink slot f s) ∨
    ((getLink slot s).effective = .present ∧ (f (getLink slot s)).effective = .absent ∧
      changePresence slot f s = enterAbsent slot (modLink slot f s)) ∨
    ((getLink slot s).effective = .absent ∧ (f (getLink slot s)).effective = .present ∧
      changePresence slot f s = enterPresent slot (modLink slot f s)) := by
  have h : getLink slot (modLink slot f s) = f (getLink slot s) := by simp [getLink_modLink]
  unfold changePresence
  rw [h]
  cases ha : (f (getLink slot s)).effective <;> cases hb : (getLink slot s).effective <;> simp

/-- A change of lock, by what becomes of the effective state. -/
theorem changeLock_cases (k : Station) (f : StationState → StationState) (s : State) :
    ((f (getStation k s)).effective = (getStation k s).effective ∧
      changeLock k f s = modStation k f s) ∨
    ((getStation k s).effective = .locked ∧ (f (getStation k s)).effective = .unlocked ∧
      changeLock k f s =
        latch .lockChange (modStation k (fun st => (f st).unlock) s)) ∨
    ((getStation k s).effective = .unlocked ∧ (f (getStation k s)).effective = .locked ∧
      changeLock k f s =
        latch .lockChange (startSettle (stationTarget k) (modStation k f s))) := by
  have h : getStation k (modStation k f s) = f (getStation k s) := by
    simp [getStation_modStation]
  unfold changeLock
  rw [h]
  cases ha : (f (getStation k s)).effective <;> cases hb : (getStation k s).effective <;>
    simp [modStation]

/-- A trigger brings the slot to HELD and latches SHOCK; no other slot's record changes. -/
theorem trigger_spec (slot x : Slot) (s : State) :
    getSuppression x (trigger slot s) =
      if x = slot then { getSuppression x s with
        state := .held, hold := s.settings.global.shockHold, clearRequested := false }
      else getSuppression x s := by
  simp [trigger, getSuppression_modSuppression]

/-! ### Flags -/

/-- A latched flag stays latched while another is latched. -/
theorem latch_keeps (f : Flag) (s : State) :
    (latch f s).port.latched &&& s.port.latched = s.port.latched := by
  have h : ∀ a b : BitVec 12, (a ||| b) &&& a = a := by
    intro a b
    ext i
    simp +contextual
  exact h _ _

/-! ### The arbiter and the banks -/

theorem hasReads_iff (s : State) :
    hasReads s = true ↔ ∃ e ∈ s.prediction.evaluations, e.waiting ≠ [] := by
  simp [hasReads]

theorem predictionWaits_iff (s : State) :
    predictionWaits s = true ↔
      (∃ e ∈ s.prediction.evaluations, e.waiting ≠ []) ∧ s.prediction.gap = false := by
  simp [predictionWaits, hasReads]

theorem adaptationWaits_iff (s : State) :
    adaptationWaits s = true ↔ s.adaptation.steps ≠ [] ∧ s.adaptation.gap = false := by
  simp [adaptationWaits]

theorem portMayBeGranted_iff (s : State) :
    portMayBeGranted s = true ↔ predictionWaits s = false ∧ adaptationWaits s = false := by
  simp [portMayBeGranted]

@[simp] theorem bank_setBank_self (c : CouplingStore) (n : BankName) (b : Bank) :
    (c.setBank n b).bank n = b := by cases n <;> rfl

@[simp] theorem bank_setBank_other (c : CouplingStore) (n : BankName) (b : Bank) :
    (c.setBank n b).bank n.other = c.bank n.other := by cases n <;> rfl

@[simp] theorem active_setBank (c : CouplingStore) (n : BankName) (b : Bank) :
    (c.setBank n b).active = c.active := by cases n <;> rfl

@[simp] theorem swapPending_setBank (c : CouplingStore) (n : BankName) (b : Bank) :
    (c.setBank n b).swapPending = c.swapPending := by cases n <;> rfl

@[simp] theorem other_other (n : BankName) : n.other.other = n := by cases n <;> rfl

@[simp] theorem other_ne (n : BankName) : n.other ≠ n := by cases n <;> decide

/-- An update written to a bank changes the gain of one entry of one list of it, and no pool count,
no other bank, no marker. -/
theorem applyUpdate_cases (c : CouplingStore) (bank : BankName) (t : Target) (u : GainUpdate) :
    (bank ≠ c.active ∧ updateReport c bank t u = .dropped ∧ applyUpdate c bank t u = c) ∨
    (bank = c.active ∧ findEntry (tget (c.bank bank).lists u.source) t = none ∧
      updateReport c bank t u = .skipped ∧ applyUpdate c bank t u = c) ∨
    (∃ e, bank = c.active ∧ findEntry (tget (c.bank bank).lists u.source) t = some e ∧
      updateReport c bank t u = .written (u.clips e.gain) ∧
      applyUpdate c bank t u = c.setBank bank ⟨tset (c.bank bank).lists u.source
        (setGain (tget (c.bank bank).lists u.source) t (u.newGain e.gain)), (c.bank bank).pool⟩) := by
  by_cases hb : bank = c.active
  · subst hb
    rcases he : findEntry (tget (c.bank c.active).lists u.source) t with _ | e
    · exact .inr (.inl ⟨rfl, rfl, by simp [updateReport, he], by simp [applyUpdate, he]⟩)
    · exact .inr (.inr ⟨e, rfl, rfl, by simp [updateReport, he], by simp [applyUpdate, he]⟩)
  · exact .inl ⟨hb, by simp [updateReport, hb], by simp [applyUpdate, hb]⟩

/-! ### Clipping and rounding -/

theorem clip_eq (l x : Int) (h : 0 ≤ l) : clip l x = max (-l) (min l x) := by
  unfold clip
  split
  · omega
  · split <;> omega

/-- A clipped value lies within its bound. -/
theorem clip_bounds (l x : Int) (h : 0 ≤ l) : -l ≤ clip l x ∧ clip l x ≤ l := by
  rw [clip_eq l x h]
  omega

theorem clipNat_eq (lo hi x : Nat) (h : lo ≤ hi) : clipNat lo hi x = max lo (min hi x) := by
  unfold clipNat
  split
  · omega
  · split <;> omega

/-- A value clipped into a range lies in it. -/
theorem clipNat_within (lo hi x : Nat) (h : lo ≤ hi) : Within lo hi (clipNat lo hi x) := by
  rw [clipNat_eq lo hi x h]
  constructor <;> omega

end Sys2Proof.Machine
end

