-- ==== Sys2Proof/Laws/Timebase.lean ====
section
/-! SUPPORT. What the events of the timebase leave alone, and the shape of every command's meaning:
a change of a running part. -/

namespace Sys2Proof.Machine

/-- What each step of a fold keeps, the fold keeps. -/
theorem foldl_keeps {α β σ : Type} (g : σ → β) (f : σ → α → σ) (h : ∀ s a, g (f s a) = g s)
    (l : List α) (s : σ) : g (l.foldl f s) = g s := by
  induction l generalizing s with
  | nil => rfl
  | cons a l ih => rw [List.foldl_cons, ih, h]

/-- The blocks that no fall of a count reaches. -/
def outsideFalls (s : State) :=
  (s.now, s.boundary, s.coldReset, s.table, s.cache, s.store, s.prediction, s.links, s.settings,
    s.port, s.pending, s.adaptation.steps)

theorem settleEnd_frame (t : Target) (s : State) :
    outsideFalls (settleEnd t s) = outsideFalls s ∧ (settleEnd t s).stations = s.stations ∧
      (settleEnd t s).suppression = s.suppression := by
  unfold settleEnd
  split <;> exact ⟨rfl, rfl, rfl⟩

theorem divergenceHoldEnd_frame (t : Target) (s : State) :
    outsideFalls (divergenceHoldEnd t s) = outsideFalls s ∧
      (divergenceHoldEnd t s).stations = s.stations ∧
      (divergenceHoldEnd t s).suppression = s.suppression := by
  unfold divergenceHoldEnd
  split
  · split <;> exact ⟨rfl, rfl, rfl⟩
  · exact ⟨rfl, rfl, rfl⟩

theorem shockHoldEnd_frame (k : Station) (s : State) :
    outsideFalls (shockHoldEnd k s) = outsideFalls s ∧
      (shockHoldEnd k s).adaptation = s.adaptation ∧
      (shockHoldEnd k s).suppression = s.suppression := by
  unfold shockHoldEnd
  split
  · split <;> exact ⟨rfl, rfl, rfl⟩
  · exact ⟨rfl, rfl, rfl⟩

theorem holdExpiry_frame (slot : Slot) (s : State) :
    outsideFalls (holdExpiry slot s) = outsideFalls s ∧
      (holdExpiry slot s).adaptation = s.adaptation ∧
      (holdExpiry slot s).stations = s.stations := by
  unfold holdExpiry
  split
  · split <;> exact ⟨rfl, rfl, rfl⟩
  · exact ⟨rfl, rfl, rfl⟩

/-- Taking the falls that are due ends the boundary and changes no block but adaptation records,
stations and suppression records. -/
theorem takeFalls_frame (s : State) :
    outsideFalls (takeFalls s) = outsideFalls { s with boundary := .quiet } := by
  have h1 := foldl_keeps outsideFalls (fun s t => divergenceHoldEnd t (settleEnd t s))
    (fun s t => ((divergenceHoldEnd_frame t _).1.trans (settleEnd_frame t s).1))
    (List.finRange 112) s
  have h2 := foldl_keeps outsideFalls (fun s k => shockHoldEnd k s)
    (fun s k => (shockHoldEnd_frame k s).1) (List.finRange 16)
    ((List.finRange 112).foldl (fun s t => divergenceHoldEnd t (settleEnd t s)) s)
  have h3 := foldl_keeps outsideFalls (fun s slot => holdExpiry slot s)
    (fun s slot => (holdExpiry_frame slot s).1) (List.finRange 96)
    ((List.finRange 16).foldl (fun s k => shockHoldEnd k s)
      ((List.finRange 112).foldl (fun s t => divergenceHoldEnd t (settleEnd t s)) s))
  have h := h3.trans (h2.trans h1)
  simp only [outsideFalls, Prod.mk.injEq] at h
  simp [takeFalls, outsideFalls, h]

/-- The state but for the table and the cache's slots. -/
def outsideRecords (s : State) :=
  (s.now, s.boundary, s.coldReset, s.cache.lru, s.cache.queue, s.cache.unusable, s.cache.flight,
    s.cache.port, s.store, s.prediction, s.adaptation, s.stations, s.suppression, s.links,
    s.settings, s.port, s.pending)

/-- Setting a record's state, or retiring it, reaches the table and the cache's reference counts
alone. -/
theorem settleRecord_frame (r : RecordNo) (s : State) :
    outsideRecords (settleRecord r s) = outsideRecords s := by
  rcases settleRecord_cases r s with ⟨st, -, hs⟩ | ⟨-, hs⟩
  · rw [hs]; rfl
  · rw [hs]; rfl

/-- Taking the records' time events changes the table and the cache's reference counts alone. -/
theorem takeRecordEvents_frame (s : State) :
    outsideRecords (takeRecordEvents s) = outsideRecords s := by
  refine foldl_keeps outsideRecords _ (fun s r => ?_) (List.finRange 128) s
  split
  · exact settleRecord_frame r s
  · rfl

/-- Every command but POWER-UP, RESET-LINE and COLD-RESET-END is a change that a running part makes,
and one that a held part makes of its port's transaction alone. -/
theorem exec_eq_onPart (c : Instr) (h1 : c ≠ .powerUp) (h2 : c ≠ .resetLine)
    (h3 : c ≠ .coldResetEnd) :
    ∃ held f : State → State, (∀ s, exec c s = onPart held f s) ∧
      ((∀ s, held s = s) ∨ (∀ s, held s = endTransaction s) ∨ ∀ s, held s = untakenStart s) := by
  cases c
  case powerUp => exact absurd rfl h1
  case resetLine => exact absurd rfl h2
  case coldResetEnd => exact absurd rfl h3
  case transactionStart => exact ⟨_, _, fun _ => rfl, .inr (.inr fun _ => rfl)⟩
  case unknownCommand code =>
    refine ⟨_, _, fun _ => rfl, ?_⟩
    cases hk : knownCode code
    · exact .inr (.inl fun _ => by simp)
    · exact .inl fun _ => by simp
  all_goals first
    | exact ⟨id, _, fun _ => rfl, .inl fun _ => rfl⟩
    | exact ⟨endTransaction, _, fun _ => rfl, .inr (.inl fun _ => rfl)⟩

end Sys2Proof.Machine
end

