-- ==== Sys2Proof/Tests/Slice0.lean ====
section
/-! SUPPORT. Tests: a check of well-formedness refuses its ill-formed term; words written out from
spec/ read as their commands; single steps against the spec's worked sequences; and, for every
statement with hypotheses, a state and operands that meet them (`witness_…`). -/

namespace Sys2Proof.Tests

open Sys2Proof.Machine

set_option maxRecDepth 4000
set_option Elab.async false

/-! ### Well-formedness refuses -/

theorem test_wellFormed_refuses_limit_0 :
    (Instr.notice 3 ⟨0, 5, 1, 1, some 0⟩).wellFormed = false := by decide
theorem test_wellFormed_refuses_limit_257 :
    (Instr.notice 3 ⟨0, 5, 1, 1, some 257⟩).wellFormed = false := by decide
theorem test_wellFormed_refuses_empty_amend :
    (Instr.amend 3 ⟨0, none, none⟩).wellFormed = false := by decide
theorem test_wellFormed_refuses_empty_page :
    (Instr.fetchCompleteGood []).wellFormed = false := by decide
theorem test_wellFormed_refuses_page_of_257 :
    (Instr.fetchCompleteGood (List.replicate 257 0)).wellFormed = false := by decide +kernel
theorem test_wellFormed_refuses_list_of_64 :
    (Instr.listWrite (.fields ⟨3, List.replicate 64 ⟨0, 0, 0⟩⟩)).wellFormed = false := by
  decide +kernel
theorem test_wellFormed_refuses_known_code :
    (Instr.unknownCommand 0x1B).wellFormed = false := by decide
theorem test_wellFormed_refuses_second_cycle :
    (Instr.frameBoundary [.cycle 3, .gainUpdate, .cycle 3]).wellFormed = false := by decide

/-! ### Words written out from the formats of 10 -/

/-- NOTICE of slot 25 (position 1): kind 1, tag 3, limit present, profile 300, scale −512, start
1234h, limit 256; byte 9 completes the check A5h (10.1). -/
theorem test_notice_bytes :
    (upstreamOf [0x22, 0x71, 0x2C, 0xFE, 0x00, 0x12, 0x34, 0x01, 0x00, 0xA1]).map
      (decodeUpstream 25) =
      some (.notice 25 ⟨3, 300, BitVec.ofInt 16 (-512), 0x1234, some 256⟩) := by decide +kernel

/-- AMEND of slot 25 with a new scale alone. -/
theorem test_amend_bytes :
    (upstreamOf [0x42, 0x48, 0, 0x00, 0x10, 0, 0, 0, 0, 0x0B]).map (decodeUpstream 25) =
      some (.amend 25 ⟨2, none, some 16⟩) := by decide +kernel

/-- CLOSE of slot 25, tag 1, end stamp FFFFh. -/
theorem test_close_bytes :
    (upstreamOf [0x82, 0x20, 0, 0, 0, 0xFF, 0xFF, 0, 0, 0x05]).map (decodeUpstream 25) =
      some (.close 25 1 0xFFFF) := by decide +kernel

/-- A message with a position other than its window's is malformed (R154). -/
theorem test_wrong_position :
    (upstreamOf [0x60, 0x20, 0, 0, 0, 0, 0, 0, 0, 0x25]).map (decodeUpstream 25) =
      some (.malformedMessage 25) := by decide +kernel

/-- LIST-WRITE of source 24 with one entry: code 06h, length 5 (R176). -/
theorem test_list_write_frame :
    decodeFrame [0x06, 5, 24, 25, 0x10, 0x00, 1] =
      some (.listWrite (.fields ⟨24, [⟨25, 4096, 1⟩]⟩)) := by decide +kernel

/-- LEND's frame, 14h 00h, bit by bit, and one bit more: each byte goes most significant bit first,
and so does the 09h of IN-USE (R164, R176). -/
theorem test_frame_bits :
    decodeFrame (bytesOfBits [false, false, false, true, false, true, false, false,
      false, false, false, false, false, false, false, false, true]) =
      some (.lend (.fields ())) ∧
    (⟨false, ⟨.inUse, .none⟩⟩ : Transaction).bitOut 4 = true ∧
    (⟨false, ⟨.inUse, .none⟩⟩ : Transaction).bitOut 5 = false := by decide +kernel

/-- The sensor line between words, then SWEEP-END with stamp 4001h: start bit 0, type 10, stop bit 1
(R175). -/
theorem test_sensor_line :
    SensorReceiver.idle.words ([true, true, false] ++
      [true, false, false, false, false, false, false, false] ++
      [false, true, false, false, false, false, false, false] ++
      [false, false, false, false, false, false, false, true] ++ [true, true]) =
      [.sweepEnd 0x4001] := by decide +kernel

/-- SETTING-WRITE of the divider: code 04h, record FFh, setting 9, value 2 (R167, R176). -/
theorem test_setting_write_frame :
    decodeFrame [0x04, 6, 0xFF, 9, 0, 0, 0, 2] =
      some (.settingWrite (.fields (⟨0xFF, 9⟩, ⟨0, 0, 2⟩))) := by decide +kernel

/-- No row of the table gives bits. -/
theorem test_no_table_word : decodeTableWord 8 0x1B = none := by decide

/-! ### Fixtures -/

/-- The windows of a frame of which those below w are over. -/
def windowsFrom (w : Nat) : Vector LinkSlot 96 :=
  Vector.ofFn fun x => { coldLinkSlot with
    window := if position x < w then .over else .upstream none }

/-- Slot 25 PRESENT in frame 5000 at chassis time 40001, in whose sample period a message of its
window, 1, can have been received; window 0 is over. -/
def present25 : State :=
  modLink 25 (fun l => { l with detected := .present, drive := .active })
    { State.reset with now := 40001, links := { State.reset.links with slots := windowsFrom 1 } }

/-- The same in the first sample period of the frame. -/
def early25 : State := { present25 with now := 40000 }

/-- The same with windows 0 and 1 over on every row. -/
def passed25 : State := { present25 with links := (modLink 25
  (fun l => { l with detected := .present, drive := .active })
  { present25 with links := { present25.links with slots := windowsFrom 2 } }).links }

/-- A table whose one live record is record 4. -/
def one (v : SourceRecord) : SourceTable :=
  ⟨tset emptyTable.records 4 v, tset emptyTable.liveCount v.slot 1⟩

/-- Slot 25 PRESENT with one live record. -/
def holding (v : SourceRecord) : State := { present25 with table := one v }

/-- A record of slot 25 with tag 3 and profile 40. -/
def motion (st : RecordState) (start : Time) (length : Nat) : SourceRecord :=
  { freeRecord with
    state := st, slot := 25, tag := 3, profile := 40, scale := 640, start := start
    length := length }

/-- Profile 40 FILLED in cache slot 0. -/
def resident40 (n : Nat) (s : State) : State :=
  { s with cache := { s.cache with
      slots := tset s.cache.slots 0 (.filled 40 [100, 200, 300] n), lru := [0] } }

/-- A fetch of profile 41 into cache slot 1. -/
def fetching (s : State) : State :=
  { s with cache := { s.cache with
      slots := tset s.cache.slots 1 (.filling 41), flight := some ⟨1, 41, 2⟩ } }

/-- Every cache slot FILLED, slot 7 the least recently used of count 0 where n is 0: a start of
profile 300 is due, and would choose it. -/
def crowded (n : Nat) : State :=
  { present25 with cache := { present25.cache with
      slots := Vector.ofFn fun i => .filled ⟨i.val, by omega⟩ [1] (if i.val = 7 then n else 1)
      lru := [3, 7], queue := [300] } }

/-- A state with its latched flags, boundary and due falls as a reached boundary leaves them. -/
def reached (s : State) : State := markDue { s with boundary := .reached }

theorem one_record (v : SourceRecord) (s : State) (h : s.table = one v) (r : RecordNo) :
    getRecord r s = if r = 4 then v else freeRecord := by
  simp [getRecord, h, one, tget_tset, emptyTable]

/-- A table of one live record obeys the law of the Source Table. -/
theorem one_law (v : SourceRecord) (hv : isLive v = true) (s : State) (h : s.table = one v) :
    SourceTableLaw s := by
  constructor
  · intro x
    have hl : getLive x s = if x = v.slot then 1 else 0 := by
      simp [getLive, h, one, tget_tset, emptyTable]
    have hf : liveOfSlot x s = if x = v.slot then [4] else [] := by
      have hp : (fun i : RecordNo => isLive (tget s.table.records i) &&
          decide ((tget s.table.records i).slot = x)) =
          fun i => decide (i = 4 ∧ x = v.slot) := by
        funext i
        have := one_record v s h i
        unfold getRecord at this
        rw [this]
        by_cases hi : i = 4
        · simp [hi, hv, eq_comm]
        · simp [hi, isLive, freeRecord]
      unfold liveOfSlot indicesWhere
      rw [hp]
      by_cases hx : x = v.slot
      · simp [hx]; decide
      · simp [hx]
    rw [hl, hf]
    split <;> simp
  · intro r q hr hq _ _
    rw [one_record v s h] at hr hq
    by_cases h1 : r = 4
    · by_cases h2 : q = 4
      · rw [h1, h2]
      · simp [h2, isLive, freeRecord] at hq
    · simp [h1, isLive, freeRecord] at hr

/-! ### Witnesses: the queue and the laws -/

theorem witness_StepRunsTheFrontCommand :
    (present25.withQueue [.feed 25, .fetchStart]).pending = .feed 25 :: [.fetchStart] ∧
    present25.pending = [] := by decide +kernel

/-- A state with a live record, a resident profile it names, a lawful list in each bank, an
evaluation record and a step in flight. -/
def lawful : State :=
  setSteps [] [⟨⟨40000, 2⟩, 25, .a, [⟨24, true, 16, 24576⟩], false⟩]
    (setRing 25 [⟨5000, .a, Vector.replicate 8 7, false, false, false, false,
        [⟨4, 24, 100, false⟩]⟩]
      (setStore ⟨⟨tset emptyBank.lists 24 [⟨25, 4096, 1⟩], 1⟩,
          ⟨tset emptyBank.lists 24 [⟨25, 5, 0⟩, ⟨99, -7, 15⟩], 2⟩, .a, false⟩
        (resident40 1 (holding (motion .pending 40020 3)))))

/-- The lawful state takes a step: its commands wait. -/
theorem lawful_steps : ∃ t, step (lawful.withQueue [.gainUpdate]) = .next t := ⟨_, rfl⟩

theorem witness_StepsKeepTheSourceTableLaw :
    SourceTableLaw (lawful.withQueue [.gainUpdate]) ∧
      ∃ t, step (lawful.withQueue [.gainUpdate]) = .next t :=
  ⟨one_law _ rfl _ rfl, lawful_steps⟩

theorem witness_StepsKeepPresenceAndWindowLaws :
    PresenceLaw (lawful.withQueue [.gainUpdate]) ∧
      WindowLaw (lawful.withQueue [.gainUpdate]) := ⟨by decide +kernel, by decide +kernel⟩

theorem witness_StepsKeepTheProfileCacheLaws :
    ProfileCacheLaw (lawful.withQueue [.gainUpdate]) ∧
      ReferenceCountLaw (lawful.withQueue [.gainUpdate]) := by
  refine ⟨⟨by decide +kernel, by decide +kernel, by decide +kernel, by decide +kernel,
    by decide +kernel, by decide +kernel, ?_, by decide +kernel⟩, by decide +kernel⟩
  intro id h
  simp [lawful, unusable, setSteps, setRing, setStore, resident40, holding, present25, modLink,
    State.reset, State.cold, coldCache, noUnusable, State.withQueue] at h

theorem lawful_bank (n : BankName) : BankLaw (lawful.store.bank n) := by
  cases n
  · exact ⟨by decide +kernel, by decide +kernel, by decide +kernel⟩
  · exact ⟨by decide +kernel, by decide +kernel, by decide +kernel⟩

theorem witness_StepsKeepTheCouplingStoreLaw :
    CouplingStoreLaw (lawful.withQueue [.gainUpdate]) :=
  ⟨lawful_bank .a, lawful_bank .b, trivial, fun h => by simp [lawful, setSteps, setRing, setStore,
    resident40, holding, present25, modLink, State.reset, State.cold, coldPort,
    State.withQueue] at h⟩

theorem witness_StepsKeepTheRingAndUpdateQueueLaws :
    RingLaw (lawful.withQueue [.gainUpdate]) ∧
      UpdateQueueLaw (lawful.withQueue [.gainUpdate]) := by
  refine ⟨⟨by decide +kernel, by decide +kernel, by decide +kernel⟩, by decide +kernel,
    by decide +kernel, fun m h => ?_⟩
  cases h

theorem witness_StepsKeepTheDivergenceLaw :
    DivergenceLaw (lawful.withQueue [.gainUpdate]) ∧ DivergenceLaw lawful ∧
      ∃ t, exec .gainUpdate lawful = .next t := ⟨by decide +kernel, by decide +kernel, _, rfl⟩

theorem witness_StepsKeepTheStationLaws :
    FilterLaw (lawful.withQueue [.gainUpdate]) ∧
      FrameAccountLaw (({ State.reset with boundary := .quiet }).withQueue [.gainUpdate]) := by
  exact ⟨by decide +kernel, by decide +kernel⟩

theorem witness_StepsKeepTheSuppressionLaw :
    SuppressionLaw ((trigger 25 lawful).withQueue [.holdExpiry 25]) ∧
      ∃ t, step ((trigger 25 lawful).withQueue [.holdExpiry 25]) = .next t :=
  ⟨by decide +kernel, _, rfl⟩

theorem witness_StepsKeepSettingsInRange :
    SettingsLaw (lawful.withQueue [.gainUpdate]) := by decide +kernel

theorem witness_LatchedFlagsStayLatched :
    ∃ t, exec (.feed 25) (latch .clipped present25) = .next t := ⟨_, rfl⟩

/-! ### Witnesses: formats -/

theorem witness_UpstreamMessagesReadBackOrAreMalformed :
    (⟨7, 511, 0xFFFF, 0xFFFF, some 256⟩ : NoticeFields).wellFormed ∧
    (⟨0, 0, 0, 0, some 1⟩ : NoticeFields).wellFormed ∧
    ((some 0 : Option Half) ≠ none ∨ (none : Option Half) ≠ none) ∧
    ((none : Option Half) ≠ none ∨ (some 0xFFFF : Option Half) ≠ none) := by decide

theorem witness_SensorWordsAndPagesAreReadByTheirTests :
    Ready present25 ∧ (1 ≤ ([5] : List Half).length ∧ ([5] : List Half).length ≤ 256) ∧
    1 ≤ (List.replicate 256 (0 : Half)).length ∧ (List.replicate 256 (0 : Half)).length ≤ 256 := by
  decide +kernel

theorem witness_ManagementFramesReadBack :
    (Instr.listWrite (.fields ⟨95, List.replicate 63 ⟨111, 1, 255⟩⟩)).wellFormed ∧
    (encodeFrame (.listWrite (.fields ⟨95, List.replicate 63 ⟨111, 1, 255⟩⟩))).isSome ∧
    (encodeFrame (.holdShorten (.fields 0xFF))).isSome := by decide +kernel

/-- A FEED with every field at the end of its range. -/
def edgeFeed : Feed :=
  ⟨.notRunning, 7, ⟨#v[-32768, 32767, 0, -1, 1, 0, 0, 0], true, true, true, true, true⟩, 7⟩

theorem witness_SentMessagesCarryTheirFieldsAndCheck :
    edgeFeed.tag < 8 ∧ edgeFeed.frameTag < 8 ∧
    (∀ i : Fin 8, -32768 ≤ tget edgeFeed.block.values i ∧ tget edgeFeed.block.values i ≤ 32767) ∧
    (⟨.badList, .badList .length none⟩ : Response).body.bytes.length < 65536 ∧
    (⟨false, okResponse⟩ : Transaction).out.bytes[0]? = some 0 ∧
    (⟨false, okResponse⟩ : Transaction).out.bytes.length ≤ 3 := by decide +kernel

theorem witness_StampsReadAsTheOneNearTime :
    ((0x8000#32).toNat % 65536 = (0x8000#16).toNat ∧
      -32768 ≤ (0x8000#32 - 0x10000#32).toInt ∧ (0x8000#32 - 0x10000#32).toInt ≤ 32767) ∧
    ((0x17FFF#32).toNat % 65536 = (0x7FFF#16).toNat ∧
      -32768 ≤ (0x17FFF#32 - 0x10000#32).toInt ∧
      (0x17FFF#32 - 0x10000#32).toInt ≤ 32767) := by decide

/-! ### Witnesses: chassis time and the frame boundary -/

/-- Nothing is due on a quiet part whose table holds one record that is not due. -/
theorem one_notDue (v : SourceRecord) (s : State) (h : s.table = one v) (hq : s.boundary = .quiet)
    (hd : recordDue v s.now = false) (hf : startDue s = false) : NothingDue s := by
  refine ⟨hq, fun r => ?_, hf⟩
  rw [one_record v s h]
  split
  · exact hd
  · rfl

theorem witness_ChassisTimeAdvancesByOne :
    Running early25 ∧ NothingDue early25 ∧ early25.prediction.evaluations = [] ∧
      early25.cache.queue = [] ∧
      (∀ x : Slot, 600 + 400 * (x.val % 12) ≤ 625 * (early25.now.toNat % 8 + 1) →
        (getLink x early25).window = .over) ∧
      (∀ x : Slot, 360 + 400 * (x.val % 12) ≤ 625 * (early25.now.toNat % 8 + 1) →
        (getLink x early25).window.isUpstream = false) ∧
      (600 + 400 * ((24 : Slot).val % 12) ≤ 625 * (early25.now.toNat % 8 + 1) ∧
        625 * (early25.now.toNat % 8 + 1) < 360 + 400 * ((25 : Slot).val % 12)) := by
  decide +kernel

theorem witness_FrameBoundarySwapsAndOpensTheFrame :
    (Ready (reached present25) ∧ (reached present25).boundary = .reached ∧
      (reached present25).store.swapPending = false ∧ BoundaryAct.gainUpdate ∉ [.cycle 3]) ∧
    (let s := reached { present25 with store := { present25.store with swapPending := true } };
      Ready s ∧ s.boundary = .reached ∧ s.store.swapPending = true ∧
        (cyclesOf [.cycle 3, .gainUpdate]).Nodup ∧ 3 ∈ cyclesOf [.cycle 3, .gainUpdate]) ∧
    (Ready present25 ∧ present25.boundary ≠ .reached) := by decide +kernel

/-- Station 3 at a reached boundary, its older account with 4 residuals and two periods missing,
with its lock and a run of bad samples before. -/
def closing (detected : Lock) (bad : Nat) : State :=
  modStation 3 (fun st => { st with
    detected := detected, badRun := bad
    older := { freshAccount 4998 true with
      taken := tset (tset (Vector.replicate 8 true) 0 false) 5 false, sum := -22, count := 4 } })
    (reached present25)

theorem witness_StationsCloseTheirFrameAtTheBoundary :
    (∀ s ∈ [closing .locked 1, closing .locked 0, closing .unlocked 0],
      Ready s ∧ s.boundary = .reached ∧ 4 ≤ (getStation 3 s).older.count ∧
      (getStation 3 s).older.missingCounted = true ∧ 0 < (getStation 3 s).older.missing ∧
      (getStation 3 s).force = none ∧ (getStation 4 s).older.missingCounted = false) ∧
    (getStation 3 (closing .locked 1)).older.missing = 2 ∧
    (closing .locked 1).settings.global.stationUnlock = 1 + 2 ∧
    (getStation 3 (closing .unlocked 0)).detected = .unlocked := by decide +kernel

/-- Station 3's ring with the record of the frame that closes, of one contributor. -/
def meaning (settle postscaler : Nat) : State :=
  setRing 99 [⟨4998, .a, Vector.replicate 8 7, false, false, false, false,
      [⟨4, 24, 100, false⟩]⟩]
    (modAdapt 99 (fun a => { a with settle := settle, postscaler := postscaler })
      (closing .locked 0))

/-- A mean that is ignored, one that is counted, one that steps; a station that is not LOCKED; and
two steps of one moment. -/
theorem witness_StationMeansArriveAtTheCloseInOrderOfTarget :
    (∀ s ∈ [meaning 8 0, meaning 0 0, meaning 0 3],
      Ready s ∧ s.boundary = .reached ∧ s.store.swapPending = false ∧
      4 ≤ (getStation 3 s).older.count ∧ (getStation 3 s).effective = .locked ∧
      (getStation 3 s).shockHold = 0 ∧ (getAdapt 99 s).hold = 0 ∧ s.store.active = .a ∧
      ((getRing (stationTarget 3) s).find?
        fun x => decide (x.frame = (getStation 3 s).older.frame)).isSome ∧
      (∀ j : Station, j ≠ 3 → (getStation j s).older.count < 4) ∧
      s.adaptation.openMoment = none ∧ (targetSettings 99 s).interval = 4 ∧
      (targetSettings 99 s).enabled = true ∧ (getAdapt 99 s).frozen = false) ∧
    (getStation 3 (closing .unlocked 0)).effective = .unlocked ∧
    (let a : Step := ⟨⟨40000, 0⟩, 96, .a, [⟨24, true, 16, 24576⟩], false⟩;
      let b : Step := { a with target := 99 };
      a.moment = b.moment ∧ a.target < b.target ∧ a.updates ≠ [] ∧ b.updates ≠ [] ∧
      let u : GainUpdate := ⟨24, true, 16, 24576⟩;
      let s := setSteps [] [⟨⟨39992, 0⟩, 25, .a, [u, u], false⟩,
        ⟨⟨39992, 2⟩, 37, .a, List.replicate 252 u, false⟩] present25;
      Ready s ∧ (∀ m ∈ s.adaptation.openMoment, m.moment ≠ a.moment) ∧
        (∀ e ∈ s.prediction.evaluations, e.waiting = []) ∧
        (∀ x ∈ s.adaptation.steps, x.moment ≠ a.moment) ∧
        queuedUpdates s.adaptation.steps + a.updates.length + b.updates.length = 256) := by
  decide +kernel

/-- Counts of n whose fall is due at a boundary that has been taken, or only reached. -/
def falling (n : Nat) (b : BoundaryPhase) : State :=
  modSuppression 25 (fun r => { r with state := .held, hold := n })
    (modStation 3 (fun st => { st with shockHold := n })
      (modAdapt 25 (fun a => { a with settle := n, hold := n })
        { reached present25 with boundary := b }))

theorem witness_CountsEndAtTheirFallFromOne :
    (∀ b ∈ [BoundaryPhase.reached, .taken], ∀ n ∈ [0, 1, 2],
      Running (falling n b) ∧ (falling n b).boundary ≠ .quiet ∧
      (getAdapt 25 (falling n b)).settleDue = true ∧ (getAdapt 25 (falling n b)).settle = n ∧
      (getAdapt 25 (falling n b)).holdDue = true ∧ (getAdapt 25 (falling n b)).hold = n ∧
      (getStation 3 (falling n b)).shockDue = true ∧ (getStation 3 (falling n b)).shockHold = n ∧
      (getSuppression 25 (falling n b)).fallDue = true ∧
      (getSuppression 25 (falling n b)).hold = n) ∧
    (Ready (falling 1 .reached) ∧ Ready (falling 1 .quiet) ∧ (falling 1 .quiet).boundary = .quiet) ∧
    ((getAdapt 25 present25).settleDue = false ∧ (getAdapt 25 present25).holdDue = false ∧
      (getStation 3 present25).shockDue = false ∧
      (getSuppression 25 present25).fallDue = false) := by decide +kernel

theorem witness_CommandsComeAfterWhatIsDueAndInWindowOrder :
    Running (reached present25) ∧ WindowLaw (reached present25) ∧
    (Instr.feed 25).windowOf = some 25 ∧
    (Running present25 ∧ WindowLaw present25 ∧
      WindowLaw { present25 with now := 40007 } ∧
      ∃ t, exec .chassisTimeAdvance { present25 with now := 40007 } = .next t ∧
        t.boundary = .reached) ∧
    ((placeOf (.status 25 ⟨.idle, false, 0, 0⟩)).bit (position 25) = 625 * 1 + 55 ∧
      625 * (early25.now.toNat % 8 + 1) ≤ 280 + 400 * ((25 : Slot).val % 12) ∧
      280 + 400 * ((25 : Slot).val % 12) < 625 * (present25.now.toNat % 8 + 1) ∧
      625 * (early25.now.toNat % 8 + 1) ≤ 360 + 400 * ((25 : Slot).val % 12) ∧
      625 * (early25.now.toNat % 8 + 1) ≤ 440 + 400 * ((25 : Slot).val % 12) ∧
      440 + 400 * ((24 : Slot).val % 12) ≤ 625 * (early25.now.toNat % 8 + 1) ∧
      yieldsTo (.status 25 ⟨.idle, false, 0, 0⟩) (takeRecordEvents early25) = false ∧
      (placeOf (.upstreamPhaseEnd 24)).bit (position 24) < 625 * (early25.now.toNat % 8 + 1) ∧
      (placeOf (.feed 24)).bit (position 24) < 625 * (early25.now.toNat % 8 + 1)) ∧
    (startDue (takeRecordEvents (crowded 0)) = true ∧
      yieldsTo (.notice 25 ⟨3, 7, 640, 40016, none⟩) (takeRecordEvents (crowded 0)) = true ∧
      yieldsTo (.drop (.fields 7)) (takeRecordEvents (crowded 0)) = true ∧
      yieldsTo (.drop (.fields 3)) (takeRecordEvents (crowded 0)) = false) :=
  ⟨by decide, by decide +kernel, rfl, ⟨by decide, by decide +kernel, by decide +kernel, _, rfl,
    by decide +kernel⟩, by decide +kernel, by decide +kernel⟩

/-! ### Witnesses: the Source Table -/

theorem witness_RecordsFollowTheirTimeEvents :
    (∀ v ∈ [motion .pending 40001 120, motion .running 39881 120, motion .tail 39866 120],
      Running (holding v)) ∧
    ((motion .pending 40001 120).state = .pending ∧
      AtOrAfter 40001 (motion .pending 40001 120).start) ∧
    ((motion .running 39881 120).state = .running ∧
      AtOrAfter 40001 (motion .running 39881 120).endPoint) ∧
    ((motion .tail 39866 120).state = .tail ∧
      AtOrAfter 40001 ((motion .tail 39866 120).endPoint + 15)) ∧
    ¬ AtOrAfter 40001 (motion .pending 40002 120).start ∧
    ¬ AtOrAfter 40001 (motion .running 39882 120).endPoint ∧
    ¬ AtOrAfter 40001 ((motion .tail 39867 120).endPoint + 15) ∧
    (motion .pending 0 2).cut = none ∧
    0 < ((0 : Time) + BitVec.ofNat 32 2 - 1).toInt ∧
    ((0 : Time) + BitVec.ofNat 32 2 - 2).toInt ≤ 0 := by decide +kernel

/-- A NOTICE of tag 3 for profile 40. -/
def noticeAt (start : Half) (limit : Option Nat) : NoticeFields := ⟨3, 40, 640, start, limit⟩

/-- What the statements about a NOTICE from slot 25 ask of the state. -/
abbrev TakesNotice (s : State) : Prop :=
  ListensFor 25 (noticeAt 40016 none) s ∧ (getLink 25 s).effective = .present ∧ getLive 25 s ≤ 3 ∧
    s.cache.queue.length ≤ 16

/-- A state that passes none of the checks before STALE. -/
def full : State :=
  { present25 with table := ⟨Vector.replicate 128 { motion .pending 40020 3 with slot := 24 },
    emptyTable.liveCount⟩ }

/-- Sixteen ids queued, and a start of the first due. -/
def queueOf16 : State :=
  { present25 with cache := { present25.cache with
      queue := (List.finRange 16).map fun i => ⟨i.val + 100, by omega⟩ } }

/-- One state and NOTICE for each branch of the checks, and one that passes them all. -/
theorem witness_NoticesAreRefusedInTheOrderOfTheChecks :
    (TakesNotice (holding (motion .pending 40020 3)) ∧
      Names 4 25 3 (holding (motion .pending 40020 3))) ∧
    (TakesNotice { present25 with table := { emptyTable with
        liveCount := tset emptyTable.liveCount 25 3 } }) ∧
    (TakesNotice { present25 with cache := { present25.cache with
        unusable := tset noUnusable 40 true } } ∧ tget (tset noUnusable 40 true) 40 = true) ∧
    (TakesNotice present25 ∧ (noticeAt 44098 none).wellFormed ∧
      After (readStamp 40001 44098) (40001 + 4096) ∧
      ¬ After (readStamp 40001 44097) (40001 + 4096)) ∧
    (AtOrBefore (readStamp 40001 39985 + periods (noticeLength (noticeAt 39985 (some 1)) present25)
        + 15) 40001 ∧
      ¬ AtOrBefore (readStamp 40001 39986 +
        periods (noticeLength (noticeAt 39986 (some 1)) present25) + 15) 40001) ∧
    (TakesNotice full ∧ (∀ r : RecordNo, isLive (getRecord r full)) ∧ getLive 25 full ≠ 3 ∧
      ¬ ∃ r : RecordNo, Names r 25 3 full) ∧
    (let s := { queueOf16 with cache := { queueOf16.cache with port := .lent } };
      TakesNotice s ∧ residentSlot 40 s = none ∧ inFlight 40 s = false ∧
        40 ∉ s.cache.queue ∧ s.cache.queue.length = 16) := by
  and_intros <;> decide +kernel

theorem notResident40 : NotResident 40 present25 := by
  have h : ∀ c : CacheNo, tget present25.cache.slots c = .empty := by decide +kernel
  intro c p n
  rw [h c]
  exact nofun

theorem resident40_slot0 : Resident 40 0 [100, 200, 300] (resident40 0 present25) :=
  ⟨⟨0, by decide +kernel⟩, fun d _ _ h => absurd h (Nat.not_lt_zero d.val)⟩

/-- Provisional lengths of a profile that is absent, of a limit and of a resident profile. -/
theorem witness_NoticesAreRefusedInTheOrderOfTheChecks_length :
    ProvisionalLength (noticeAt 44098 none) present25 256 ∧
      ProvisionalLength (noticeAt 39985 (some 1)) present25 1 ∧
      ProvisionalLength (noticeAt 40016 none) (resident40 0 present25) 3 :=
  ⟨.inr ⟨rfl, .inl ⟨notResident40, rfl⟩⟩, .inl rfl,
    .inr ⟨rfl, .inr ⟨0, [100, 200, 300], resident40_slot0, rfl⟩⟩⟩

/-- A NOTICE that passes: with its profile absent or resident, pending or already past, in lead or
late. -/
theorem witness_NoticesThatPassFillTheLowestFreeRecord :
    (∀ s ∈ [present25, resident40 0 present25],
      ListensFor 25 (noticeAt 40016 none) s ∧ (getLink 25 s).effective = .present ∧
      (∀ q : RecordNo, ¬ Names q 25 3 s) ∧
      getLive 25 s < 3 ∧ unusable 40 s = false ∧ (getRecord 0 s).state = .free ∧
      (absentProfile 40 s = true → s.cache.queue.length < 16)) ∧
    (startDue (crowded 0) = true ∧ ListensFor 25 ⟨3, 7, 640, 40016, none⟩ (crowded 0) ∧
      (getLink 25 (crowded 0)).effective = .present ∧ unusable 7 (crowded 0) = false ∧
      absentProfile 7 (crowded 0) = false ∧ residentSlot 7 (crowded 0) = some 7) ∧
    absentProfile 40 present25 = true ∧ absentProfile 40 (resident40 0 present25) = false ∧
    (∀ q : RecordNo, q < 0 → isLive (getRecord q present25)) ∧
    (noticeLength (noticeAt 39980 (some 256)) present25 = 256 ∧
      ¬ After (readStamp 40001 40016) (40001 + 4096) ∧
      ¬ AtOrBefore (readStamp 40001 39980 + periods 256 + 15) 40001) ∧
    Before (readStamp 40001 40015) (firstSample (frameOf 40001 + 2)) ∧
    ¬ Before (readStamp 40001 40016) (firstSample (frameOf 40001 + 2)) ∧
    ({ motion .pending 39980 3 with limit := some 256 }).stateAt 40001 = none ∧
    (motion .pending 40016 3).stateAt 40001 = some .pending := by
  and_intros <;> decide +kernel

theorem witness_AmendsApplyToPendingRecordsWhole :
    (Listens 25 (holding (motion .pending 40020 3)) ∧
      (getLink 25 (holding (motion .pending 40020 3))).effective = .present ∧
      Names 4 25 3 (holding (motion .pending 40020 3)) ∧
      (motion .pending 40020 3).cut = none ∧ (motion .pending 40020 3).length ≤ 256 ∧
      (∀ r : RecordNo, ¬ Names r 25 2 (holding (motion .pending 40020 3)))) ∧
    (Listens 25 (holding (motion .running 39990 120)) ∧
      (motion .running 39990 120).state ≠ .pending) ∧
    (⟨3, some 44098, none⟩ : AmendFields).wellFormed ∧ (⟨3, none, some 5⟩ : AmendFields).wellFormed ∧
    After (readStamp 40001 44098) (40001 + 4096) ∧
    AtOrBefore (readStamp 40001 39983 + periods 3 + 15) 40001 ∧
    ¬ AtOrBefore (readStamp 40001 39984 + periods 3 + 15) 40001 := by decide +kernel

theorem witness_AmendsApplyToPendingRecordsWhole_law :
    SourceTableLaw (holding (motion .pending 40020 3)) := one_law _ rfl _ rfl

theorem witness_WithdrawsRetireOrCut :
    (∀ v ∈ [motion .pending 40020 3, motion .running 39990 120, motion .tail 39990 5],
      Listens 25 (holding v) ∧ (getLink 25 (holding v)).effective = .present ∧
      Names 4 25 3 (holding v)) ∧
    After (motion .running 39990 120).fullEnd 40001 ∧
    ∀ r : RecordNo, ¬ Names r 25 2 (holding (motion .running 39990 120)) := by decide +kernel

theorem witness_WithdrawsRetireOrCut_law :
    SourceTableLaw (holding (motion .running 39990 120)) := one_law _ rfl _ rfl

/-- A CLOSE of a running record that cuts it ahead of now, and one that names its start. -/
theorem witness_ClosesCutRunningRecords :
    (Listens 25 (holding (motion .running 39990 120)) ∧
      Names 4 25 3 (holding (motion .running 39990 120))) ∧
    ({ motion .running 39990 120 with cut := some 40010 }).stateAt 40001 = some .running ∧
    (Before (readStamp 40001 40010) (motion .running 39990 120).endPoint ∧
      ¬ Before (readStamp 40001 40010) (motion .running 39990 120).start) ∧
    (Listens 25 (holding (motion .running 39980 120)) ∧
      Before (readStamp 40001 39979) (motion .running 39980 120).start ∧
      ({ motion .running 39980 120 with cut := some 39980 }).stateAt 40001 = none) := by
  decide +kernel

/-! ### Witnesses: row links -/

/-- A window in its FEED phase with a block ready, flagged CLIPPED. -/
def clippedWindow : Window :=
  .feedPhase (some ⟨true, .taken, 3⟩)
    (.ready ⟨Vector.replicate 8 60, false, false, false, true, false⟩)

def feeding : State := modLink 25 (fun l => { l with window := clippedWindow }) passed25

theorem witness_MessagesNotHandedOnChangeOnlyTheReply :
    Listens 25 present25 ∧ (InTurn .message 25 feeding ∧ (getLink 25 feeding).window ≠ .upstream none) ∧
    (Listens 37 present25 ∧ (getLink 37 present25).effective = .absent) ∧
    (noticeAt 0 (some 256)).wellFormed ∧ (⟨3, none, some 5⟩ : AmendFields).wellFormed := by
  decide +kernel

/-- A state in which slot 37 has ended its upstream phase, at slot 25's place in the frame. -/
theorem witness_MessagesNotHandedOnChangeOnlyTheReply_other_row :
    let s := modLink 37 (fun l => { l with window := .feedPhase none (.ready absentBlock) }) present25
    InTurn .message 25 s ∧ (getLink 25 s).window = .upstream none ∧ position 37 = position 25 ∧
      (getLink 37 s).window.isUpstream = false := by decide +kernel

/-- A ring of slot 25 that holds the record of frame 4999 with one contributor. -/
def ringed : State :=
  setRing 25 [⟨4999, .a, Vector.replicate 8 7, false, false, false, false,
    [⟨4, 24, 100, false⟩]⟩] present25

/-- An arrival that is ignored (the settle count runs), one that is counted, one that steps. -/
theorem witness_StatusesSetDriveShockAndResidualAndArrive :
    (Listens 37 present25 ∧ (getLink 37 present25).effective = .absent) ∧
    (Listens 25 ringed ∧ (getLink 25 ringed).effective = .present ∧
      (∀ r ∈ getRing (slotTarget 25) ringed, r.frame.toNat % 8 ≠ (6 : Tag).val) ∧
      ((getRing (slotTarget 25) ringed).find?
        (fun x => decide (x.frame.toNat % 8 = (7 : Tag).val))).isSome) ∧
    0 < (getAdapt 25 ringed).settle ∧
    (let c := modAdapt 25 (fun a => { a with settle := 0, postscaler := 2 }) ringed;
      Listens 25 c ∧ (getAdapt 25 c).postscaler + 1 < (targetSettings 25 c).interval ∧
        (getAdapt 25 c).settle = 0 ∧ c.store.active = .a) ∧
    (let c := modAdapt 25 (fun a => { a with settle := 0, postscaler := 3 }) ringed;
      Listens 25 c ∧ (targetSettings 25 c).interval ≤ (getAdapt 25 c).postscaler + 1 ∧
        (targetSettings 25 c).deadband ≤ (37 : Int).natAbs ∧
        c.settings.global.theta ≤ (100 : Int).natAbs ∧ c.adaptation.steps = [] ∧
        c.adaptation.openMoment = none) := by
  decide +kernel

/-- One state for each row of the presence table. -/
def counting (d : Presence) (good miss : Nat) (m : Option Answer) : State :=
  modLink 25 (fun l => { l with
    detected := d, goodRun := good, missRun := miss, window := .upstream m })
    present25

theorem witness_UpstreamPhaseEndsCountPresenceAndEvaluate :
    (∀ s ∈ [counting .absent 3 0 (some ⟨true, .taken, 1⟩), counting .absent 2 0 (some ⟨true, .none, 0⟩),
        counting .absent 2 0 none, counting .present 0 1 (some ⟨true, .taken, 1⟩),
        counting .present 0 1 none, counting .present 0 2 none], InTurn .phaseEnd 25 s) ∧
    (getLink 25 (counting .present 0 2 none)).window = .upstream none ∧
    present25.settings.global.presenceLock = 4 ∧ present25.settings.global.presenceUnlock = 3 := by
  decide +kernel

/-- A slot evaluation in flight without a source that holds a live record. -/
def evaluating : State :=
  modLink 25 (fun l => { l with window := .feedPhase none .evaluating })
    (beginEvaluation 25 5001 passed25)

/-- The evaluations of slots 25 and 13, in window 1 of rows 2 and 1, each with a read waiting. -/
def turnaround : State :=
  let begun := fun (x : Slot) (s : State) =>
    modLink x (fun l => { l with window := .feedPhase none .evaluating }) (beginEvaluation (slotTarget x) 5001 s)
  begun 13 (begun 25 { passed25 with table := one (motion .pending 40020 3) })

theorem witness_FeedsGoOutOnceWithTheirBlock :
    (Feeds 25 feeding ∧ (getLink 25 feeding).window = clippedWindow ∧
      ∀ x : Slot, position x = position 25 → (getLink x feeding).window.isEvaluating = false) ∧
    (Feeds 25 evaluating ∧ (getLink 25 evaluating).window = .feedPhase none .evaluating ∧
      (findEvaluation (slotTarget 25) evaluating).any (fun e =>
        decide (e.waiting = [] ∧ e.bank = some .a) && e.snap.slotPart.isSome) = true) ∧
    (Feeds 25 passed25 ∧ (getLink 25 passed25).window = .over ∧
      ∀ x : Slot, position x = position 25 → (getLink x passed25).window.isEvaluating = false) ∧
    (let s := modLink 25 (fun l => { l with window := .upstream none }) passed25;
      InTurn .feed 25 s ∧ (getLink 25 s).window.isUpstream = true ∧
        ∀ x : Slot, x ≠ 25 → position x = position 25 →
          (getLink x s).window.isUpstream = false) := by decide +kernel

/-- The same but for slot 37, whose upstream phase stands open at the same place. -/
def lastPhase : State := modLink 37 (fun l => { l with window := .upstream none }) turnaround

theorem witness_FeedsGoOutOnceWithTheirBlock_reads :
    (Feeds 25 turnaround ∧ WindowLaw turnaround ∧ RingLaw turnaround) ∧
    (position 13 = position 25 ∧ (getLink 13 turnaround).window = .feedPhase none .evaluating ∧
      (findEvaluation (slotTarget 13) turnaround).any (fun e =>
        decide (e.waiting = [25]) && e.snap.slotPart.isSome) = true) ∧
    ∃ e ∈ turnaround.prediction.evaluations, e.waiting ≠ [] ∧ e.target ≤ slotTarget 25 ∧
      ∀ y ∈ turnaround.prediction.evaluations, y.waiting ≠ [] → e.target ≤ y.target := by
  and_intros <;> decide +kernel

theorem witness_ForcePresenceSetsTheForce :
    TakesFrames present25 ∧ 95 < (96#8).toNat ∧ 3 < (4#8).toNat ∧ (95#8).toNat = (95 : Slot).val ∧
    (3#8).toNat ≤ 3 ∧ (getLink 25 present25).effective = .present ∧
    (getLink 24 present25).effective = .absent := by decide +kernel

/-! ### Witnesses: the Profile Cache -/

theorem witness_FetchesStartIntoTheirTargetSlot :
    (Running queueOf16 ∧ NoEventDue queueOf16 ∧ frameRefused queueOf16 = false ∧
      yieldsTo (.lend (.fields ())) queueOf16 = false ∧ queueOf16.cache.flight = none ∧ queueOf16.cache.port = .owned ∧
      queueOf16.cache.queue ≠ [] ∧ tget queueOf16.cache.slots 0 = .empty) ∧
    (Running (crowded 0) ∧ NoEventDue (crowded 0) ∧ (∀ d : CacheNo, tget (crowded 0).cache.slots d ≠ .empty) ∧
      (crowded 0).cache.lru = [3] ++ 7 :: [] ∧ (tget (crowded 0).cache.slots 7).replaceable = true ∧
      ∀ d ∈ [(3 : CacheNo)], (tget (crowded 0).cache.slots d).replaceable = false) ∧
    ((∀ c : CacheNo, tget (crowded 1).cache.slots c ≠ .empty) ∧
      ∀ c ∈ (crowded 1).cache.lru, (tget (crowded 1).cache.slots c).replaceable = false) ∧
    (fetching present25).cache.flight ≠ none ∧ present25.cache.queue = [] := by decide +kernel

theorem witness_FetchesEndInAFilledSlotOrAnUnusableId :
    (Ready (fetching present25) ∧ (fetching present25).cache.flight = some ⟨1, 41, 2⟩) ∧
    (1 ≤ ([5] : List Half).length ∧ (List.replicate 256 (5 : Half)).length ≤ 256) ∧
    (let s := fetching (holding { motion .pending 40020 256 with profile := 41, provisional := true });
      isLive (getRecord 4 s) ∧ (getRecord 4 s).profile = 41 ∧
        (getRecord 4 s).provisional = true) ∧
    (Ready present25 ∧ present25.cache.flight = none) := by decide +kernel

theorem witness_CacheCommandsAnswerByTheirFirstCase :
    TakesFrames present25 ∧ 511 < (512#16).toNat ∧ (511#16).toNat = (511 : ProfileId).val ∧
    (fetching present25).cache.flight = some ⟨1, 41, 2⟩ ∧
    (inFlight 40 (resident40 0 present25) = false ∧
      residentSlot 40 (resident40 0 present25) = some 0 ∧
      tget (resident40 0 present25).cache.slots 0 = .filled 40 [100, 200, 300] 0) ∧
    residentSlot 40 present25 = none ∧
    (Running (crowded 0) ∧ NoEventDue (crowded 0) ∧ frameRefused (crowded 0) = false ∧
      (7#16).toNat = (7 : ProfileId).val ∧ startYields 7 (crowded 0) = true ∧
      residentSlot 7 (crowded 0) = some 7 ∧
      tget (crowded 0).cache.slots 7 = .filled 7 [1] 0) := by decide +kernel

theorem witness_LendAndReclaimFollowThePortState :
    (TakesFrames present25 ∧ present25.cache.port = .owned ∧ present25.cache.flight = none) ∧
    (TakesFrames (fetching present25) ∧ (fetching present25).cache.flight ≠ none) ∧
    ∀ p ∈ [PortState.lendPending, .lent],
      TakesFrames { present25 with cache := { present25.cache with port := p } } := by
  decide +kernel

/-! ### Witnesses: the Coupling Store -/

/-- The staging bank's pool full but for one entry. -/
def fullPool : State :=
  setStore { present25.store with bankB := { emptyBank with pool := 1535 } } present25

theorem witness_ListWritesAreJudgedWhenTaken :
    TakesFrames present25 ∧ 95 < (96#8).toNat ∧ (24#8).toNat = (24 : Slot).val ∧
    present25.store.swapPending = false ∧ 24 < (List.replicate 25 (⟨0, 0, 0⟩ : RawEntry)).length ∧
    112 ≤ (112#8).toNat ∧ (111#8).toNat < 112 ∧ TakesFrames fullPool ∧
    1536 < fullPool.store.bankB.pool - 0 + 2 ∧ fullPool.store.bankB.pool - 0 + 1 ≤ 1536 := by
  decide +kernel

/-- The port with a command in execution and nothing else waiting at the arbiter. -/
def waiting (e : Executing) : State := execute e present25

/-- Two evaluations of which the second has a read waiting. -/
def reading : State :=
  setEvaluations
    [{ newEvaluation 25 5001 present25 with waiting := [] },
     { newEvaluation 99 5001 present25 with
       waiting := [24], snap := ⟨[], 3, none⟩, bank := none }] present25

/-- The port with a command in execution, reads and gain updates to be made, and the marks of whose
access came last. -/
def busy (p a : Bool) (e : Executing) : State :=
  setGaps p a (execute e
    (setSteps [] [⟨⟨40000, 2⟩, 25, .a, [⟨24, true, 16, 24576⟩], false⟩] reading))

theorem witness_WaitingCommandsBeginAndAreGrantedLast :
    TakesFrames present25 ∧ 1 < (2#8).toNat ∧ (1#8).toNat ≤ 1 ∧ 127 < (128#8).toNat ∧
    (127#8).toNat = (127 : RecordNo).val ∧ (95#8).toNat = (95 : Slot).val ∧
    (Ready (waiting (.listWrite 24 [⟨25, 5, 0⟩] 0)) ∧
      (waiting (.listWrite 24 [⟨25, 5, 0⟩] 0)).adaptation.steps = [] ∧
      (waiting (.listWrite 24 [⟨25, 5, 0⟩] 0)).prediction.evaluations = []) ∧
    (waiting (.listRead .b 95)).port.executing = some (.listRead .b 95) ∧
    (waiting (.sourceList 127 none)).port.executing = some (.sourceList 127 none) ∧
    (let e := Executing.listRead .b 95;
      (Ready (busy true true e) ∧ (busy true true e).port.executing = some e ∧
        (busy true true e).adaptation.steps ≠ [] ∧
        ∃ x ∈ (busy true true e).prediction.evaluations, x.waiting ≠ []) ∧
      (Ready (busy false true e) ∧ (busy false true e).prediction.gap = false ∧
        ∃ x ∈ (busy false true e).prediction.evaluations, x.waiting ≠ []) ∧
      (Ready (busy true false e) ∧ (busy true false e).adaptation.gap = false ∧
        (busy true false e).adaptation.steps ≠ [])) := by decide +kernel

theorem witness_CaptureEmptiesThenCopiesListByList :
    ∀ e ∈ [Executing.captureEmpty, .captureCopy 0, .captureCopy 95],
      (Ready (waiting e) ∧ (waiting e).adaptation.steps = [] ∧
        (∀ x ∈ (waiting e).prediction.evaluations, x.waiting = []) ∧
        (waiting e).port.executing = some e) ∧
      (Ready (busy true true e) ∧ (busy true true e).adaptation.gap = true ∧
        (busy true true e).prediction.gap = true ∧
        (busy true true e).port.executing = some e) := by decide +kernel

theorem witness_SwapCommandsSetAndClearThePendingFlag :
    (TakesFrames present25 ∧ present25.store.swapPending = false) ∧
    (TakesFrames (setSwapPending true present25) ∧
      (setSwapPending true present25).store.swapPending = true) := by decide +kernel

/-! ### Witnesses: prediction -/

theorem witness_PredictionReadsServeTheLowestTarget :
    (Ready reading ∧ RingLaw reading) ∧
    (∃ e ∈ reading.prediction.evaluations, e.waiting = 24 :: [] ∧
      ∀ x ∈ reading.prediction.evaluations, x.waiting ≠ [] → e.target ≤ x.target) ∧
    (∀ e ∈ evaluating.prediction.evaluations, e.waiting = []) := by
  refine ⟨⟨by decide +kernel, by decide +kernel, by decide +kernel, by decide +kernel⟩,
    ⟨_, List.mem_cons_of_mem _ (List.mem_singleton.mpr rfl), rfl, by decide +kernel⟩,
    by decide +kernel⟩

theorem witness_PredictionReadsServeTheLowestTarget_turnaround :
    (TurnaroundBegun 99 reading ∧ TurnaroundBegun 13 turnaround) ∧
    (InTurn .phaseEnd 13 lastPhase ∧ RingLaw lastPhase ∧ FirstUpstream 37 13 lastPhase ∧
      (getLink 13 lastPhase).window.isEvaluating = true) ∧
    (∃ e ∈ lastPhase.prediction.evaluations, e.waiting ≠ [] ∧ e.target = slotTarget 13 ∧
      ∀ y ∈ lastPhase.prediction.evaluations, y.waiting ≠ [] → e.target ≤ y.target) := by
  and_intros <;> decide +kernel

/-- Between two reads of target 25's evaluation: a step of it has an update on the list to be read
next. -/
def between : State :=
  setGaps true false (setEvaluations
    [{ newEvaluation 25 5001 lawful with
       bank := some .a, done := [⟨13, none⟩], waiting := [24, 37] }] lawful)

theorem witness_PredictionReadsServeTheLowestTarget_update_seen :
    TurnaroundBegun 25 between ∧ Ready between ∧ RingLaw between ∧ between.prediction.gap = true ∧
    (∃ e ∈ between.prediction.evaluations, e.target = 25 ∧ e.waiting = 24 :: [37] ∧
      e.bank.getD between.store.active = between.store.active ∧
      ∀ x ∈ between.prediction.evaluations, x.waiting ≠ [] → e.target ≤ x.target) ∧
    between.adaptation.steps = ⟨⟨40000, 2⟩, 25, .a, [⟨24, true, 16, 24576⟩], false⟩ :: [] ∧
    between.store.active = .a ∧
    (tget (between.store.bank .a).lists 24).find? (fun x => decide (x.target = 25)) =
      some ⟨25, 4096, 1⟩ := by
  refine ⟨by decide +kernel, by decide +kernel, ⟨by decide +kernel, by decide +kernel, by decide +kernel⟩,
    by decide +kernel, ⟨_, List.mem_singleton.mpr rfl, rfl, rfl, rfl, by decide +kernel⟩, rfl, rfl,
    by decide +kernel⟩

theorem witness_EvaluationsEndIntoTheRing :
    (Ready evaluating ∧ (findEvaluation 25 evaluating).any (fun e =>
      decide (e.waiting = [] ∧ e.bank = some .a) && e.snap.slotPart.isSome) = true ∧
      (getLink 25 evaluating).window = .feedPhase none .evaluating ∧
      TurnaroundBegun 25 evaluating) ∧
    (let s := modLink 37 (fun l => { l with window := .upstream none }) evaluating;
      InTurn .phaseEnd 25 s ∧ FirstUpstream 37 25 s ∧
        (getLink 25 s).window.isEvaluating = true ∧
        (findEvaluation (slotTarget 25) s).any (fun e =>
          decide (e.waiting = [] ∧ e.bank ≠ none)) = true) ∧
    (Ready reading ∧ (findEvaluation 99 reading).any (fun e => decide (e.waiting ≠ [])) = true) ∧
    findEvaluation 7 reading = none := by decide +kernel

/-- An evaluation at the ends of every range. -/
theorem witness_PredictedSumsAndDrivesStayInTheirBounds :
    let r : SnapRecord := ⟨4, 24, some [-32768, 32767], -32768, 40000, 2, 40002⟩
    [r].length ≤ 128 ∧ (-32768 ≤ r.scale ∧ r.scale ≤ 32767) ∧
    (∀ x ∈ [(-32768 : Int), 32767], -32768 ≤ x ∧ x ≤ 32767) ∧
    (-32768 ≤ (-32768 : Int) ∧ (-32768 : Int) ≤ 32767) ∧
    ({ r with samples := none } : SnapRecord).samples = none := by decide

theorem witness_EvaluationRecordsListWhatTheEvaluationFound :
    let r : SnapRecord := ⟨4, 24, some [5], 640, 40000, 2, 40002⟩
    let e : Evaluation := ⟨25, 5000, some .a, ⟨[r], 3, none⟩, [⟨24, some ⟨4096, 1⟩⟩], []⟩
    (contributorsOf e)[0]? = some (r, ⟨4096, 1⟩) := by decide +kernel

theorem witness_SlotBlocksAreClippedOrZeroed :
    1 ≤ (⟨1, [], .clear, .active⟩ : SlotSnap).limit ∧
    (⟨1, [], .clear, .active⟩ : SlotSnap).suppression = .clear ∧
    (⟨1, [], .clear, .active⟩ : SlotSnap).drive ≠ .parked := by decide

/-! ### Witnesses: adaptation -/

/-- A step of target 25 whose last update stands at a gain two below its bound. -/
def stepping (hold divergence : Nat) (up : Bool) : State :=
  modAdapt 25 (fun a => { a with hold := hold, divergence := divergence })
    (setSteps [] [⟨⟨40000, 2⟩, 25, .a, [⟨24, up, 16, 4098⟩], false⟩] lawful)

theorem witness_GainUpdatesStepAndClippedStepsDiverge :
    (∀ s ∈ [stepping 0 0 true, stepping 5 0 true, stepping 0 2 true, stepping 0 1 false],
      Ready s ∧ (∀ e ∈ s.prediction.evaluations, e.waiting = []) ∧
      s.adaptation.steps.length = 1) ∧
    ((tget ((stepping 0 0 true).store.bank .a).lists 24).find? (fun x => decide (x.target = 25)))
      = some ⟨25, 4096, 1⟩ ∧
    4098 < ((4096 : Int) + 16).natAbs ∧ ¬ 4098 < ((4096 : Int) - 16).natAbs ∧
    (stepping 0 0 true).store.active = .a ∧
    (Ready between ∧ between.prediction.gap = true ∧ between.adaptation.steps.length = 1) ∧
    ((Ready present25 ∧ present25.adaptation.steps = []) ∧
      (Ready reading ∧ reading.prediction.gap = false ∧
        ∃ e ∈ reading.prediction.evaluations, e.waiting ≠ [])) := by decide +kernel

/-! ### Witnesses: sensing stations -/

/-- Station 3 with a completed pair, its accounts those of frames 4999 and 5000, and a ring that
holds the record of frame 5000. -/
def sampled (x y : Int) (detected : Lock) (good : Nat) : State :=
  setRing 99 [⟨5000, .a, Vector.replicate 8 7, false, false, false, false, []⟩]
    (modStation 3 (fun st => { st with
      pair := some (x, y), detected := detected, goodRun := good
      older := freshAccount 4999 true, newer := freshAccount 5000 true }) present25)

theorem witness_WordsPairAndSweepsAreJudgedByTheirStamp :
    (Ready present25 ∧ (6#6).toNat = 2 * (3 : Station).val ∧
      (31#6).toNat = 2 * (15 : Station).val + 1 ∧ 32 ≤ (32#6).toNat) ∧
    ((getStation 3 (modStation 3 (StationState.wordA 5) present25)).pendingA = some 5 ∧
      (getStation 3 present25).pendingA = none) ∧
    (present25.boundary = .quiet ∧ After (readStamp 40001 40002) 40001 ∧
      Before (readStamp 40001 39991) (firstSample (frameOf 40001 - 1)) ∧
      ¬ After (readStamp 40001 40001) 40001 ∧
      ¬ Before (readStamp 40001 39992) (firstSample (frameOf 40001 - 1))) ∧
    ((getStation 3 (sampled 9 0 .locked 0)).account (frameOf 40001)).isSome = true := by
  decide +kernel

theorem witness_SamplesFormResidualsOrShocks :
    (∀ s ∈ [sampled 31999 (-31999) .locked 0, sampled 9 0 .unlocked 7, sampled 9 0 .unlocked 6],
      Ready s ∧ s.boundary = .quiet ∧
      (getStation 3 s).account (frameOf 40001) = some (freshAccount 5000 true) ∧
      tget (freshAccount 5000 true).taken (periodOf 40001) = false ∧
      ((getRing (stationTarget 3) s).find? (fun r => decide (r.frame = frameOf 40001))).isSome) ∧
    (let s := setRing 99 [] (sampled 9 0 .locked 0);
      Ready s ∧ s.boundary = .quiet ∧
        (getRing (stationTarget 3) s).find? (fun r => decide (r.frame = frameOf 40001)) = none ∧
        (getStation 3 s).account (frameOf 40001) = some (freshAccount 5000 true)) ∧
    ((31999 : Int).natAbs < 32000 ∧ (-31999 : Int).natAbs < 32000 ∧
      (max (-32767) (min 32767 ((31999 : Int) + -31999))).natAbs <
        (stationSettings 3 present25).threshold) ∧
    ((getStation 3 (sampled 9 0 .locked 0)).effective = .locked ∧
      (getStation 3 (sampled 9 0 .locked 0)).shockHold = 0) ∧
    (present25.settings.global.stationLock = 7 + 1 ∧
      (getStation 3 (sampled 9 0 .unlocked 7)).effective = .unlocked) ∧
    (((stationSettings 3 present25).threshold : Int) ≤
      min 32767 (max ((8000 : Int) + 8000) (-(8000 + 8000)))) ∧
    (let s := { sampled 8000 8000 .locked 0 with settings := { present25.settings with
        slots := tset present25.settings.slots 25 { defaultSlot with shockStation := some 3 } } };
      Ready s ∧ (tget s.settings.slots 25).shockStation = some 3 ∧
        (getStation 3 s).pair = some (8000, 8000)) ∧
    (getStation 3 (sampled 32767 0 .locked 0)).pair = some (32767, 0) ∧
    1 ≤ present25.settings.global.shockHold ∧
    (∀ bad ∈ [1, 2], ∀ pair ∈ [none, some ((-32000 : Int), (9 : Int))],
      let s := modStation 3 (fun st => { st with pair := pair, badRun := bad })
        (sampled 9 0 .locked 0);
      Ready s ∧ s.boundary = .quiet ∧
        (getStation 3 s).account (frameOf 40001) = some (freshAccount 5000 true) ∧
        s.settings.global.stationUnlock = 3 ∧ (getStation 3 s).force = none) := by decide +kernel

theorem witness_ForceLockSetsTheForceAndItsEntryActions :
    TakesFrames (sampled 9 0 .locked 0) ∧ 15 < (16#8).toNat ∧ 2 < (3#8).toNat ∧
    (15#8).toNat = (15 : Station).val ∧ (2#8).toNat ≤ 2 ∧
    (getStation 3 (sampled 9 0 .locked 0)).effective = .locked ∧
    (getStation 3 present25).effective = .unlocked := by decide +kernel

/-! ### Witnesses: suppression and the management port -/

theorem witness_SuppressionCommandsActByTheSlotsState :
    TakesFrames (trigger 25 present25) ∧ 95 < (96#8).toNat ∧ 96#8 ≠ 0xFF ∧
    (95#8).toNat = (95 : Slot).val ∧ (getSuppression 25 (trigger 25 present25)).state = .held := by
  decide +kernel

/-- A transaction that began while a command was in execution. -/
def refusing : State :=
  { waiting .captureEmpty with port := { (waiting .captureEmpty).port with
      transaction := some ⟨true, ⟨.busy, .none⟩⟩ } }

theorem witness_TransactionsAndFramesAreJudgedByThePort :
    (Ready refusing ∧ frameRefused refusing = true ∧
      (encodeFrame (.identify (.fields ()))).isSome ∧ knownCode 0x12 = false ∧
      knownCode 0x1B = true) ∧
    (Ready (waiting .captureEmpty) ∧ frameRefused (waiting .captureEmpty) = true) ∧
    TakesFrames present25 := by decide +kernel

theorem witness_ReadCommandsAnswerTheStateAsItStands :
    TakesFrames (holding (motion .pending 40020 3)) ∧ 111 < (112#8).toNat ∧
    (111#8).toNat = (111 : Target).val ∧ 15 < (16#8).toNat ∧ (15#8).toNat = (15 : Station).val ∧
    127 < (128#8).toNat ∧ (4#8).toNat = (4 : RecordNo).val ∧ 7 < (8#8).toNat ∧
    Names 4 25 3 (holding (motion .pending 40020 3)) ∧
    (getRecord 5 (holding (motion .pending 40020 3))).state = .free ∧
    (∀ r : RecordNo, ¬ Names r 25 2 (holding (motion .pending 40020 3))) := by decide +kernel

theorem witness_ReadFlagsReturnsAndClears : TakesFrames (latch .frozen present25) := by
  decide +kernel

/-- Each refusal of the settings, and a stored write. -/
theorem witness_SettingsAreJudgedStoredAndReadBack :
    TakesFrames present25 ∧ (111 < (112#8).toNat ∧ 112#8 ≠ 0xFF) ∧ 23 < (24#8).toNat ∧
    (95 < (111#8).toNat ∧ (111#8).toNat < 112) ∧ (95#8).toNat < 96 ∧ 1 < (2#16).toNat ∧
    (15 < (16#8).toNat ∧ (15#8).toNat = (15 : Station).val) ∧
    globalRanges[9]? = some (2, 16) ∧ targetRanges[3]? = some (1, 16) ∧
    stationRanges[2]? = some (0, 3) ∧ (111#8).toNat = 96 + (15 : Station).val ∧
    (match exec (.settingWrite (.fields (⟨0xFF, 9⟩, ⟨0, 0, 1⟩))) present25 with
      | .next t => t.port.held.status
      | _ => .busy) = .ok := by decide +kernel

/-! ### Witnesses: resets -/

theorem witness_ColdResetsReturnEveryBlockToPowerUp :
    TakesFrames present25 ∧ Running present25 ∧
    (State.cold .resetLine true []).coldReset = some .resetLine ∧
    (State.cold .powerUp false []).coldReset = some .powerUp ∧
    (encodeFrame (.restartWarm (.fields ()))).isSome ∧ knownCode 0x12 = false ∧
    knownCode 0x1B = true := by decide +kernel

theorem witness_WarmResetsKeepModelAndPresence :
    (present25.boundary = .quiet ∧ Ready present25 ∧ TakesFrames present25) ∧
    (evaluating.boundary = .quiet ∧
      (getLink 25 evaluating).window = .feedPhase none .evaluating) ∧
    (Ready (waiting .captureEmpty) ∧ (waiting .captureEmpty).port.executing ≠ none) := by
  decide +kernel

/-! ### Single steps against the spec's worked sequences -/

/-- The state a command leaves, or the state it was given. -/
def after (c : Instr) (s : State) : State :=
  match exec c s with
  | .next t => t
  | _ => s

/-- 4.2, "Terms at the tie and at the extremes". -/
theorem test_terms :
    ([(16384, 640, 4096), (-12000, 640, -2458), (16384, 1, 16384), (-16384, 1, 16384),
        (-1024, 640, 2048), (-32768, -32768, -32768), (-32768, 32767, 32767)] :
        List (Int × Int × Int)).map (fun x => divNearest (x.1 * x.2.1 * x.2.2) (2 ^ 29)) =
      [80, 35, 1, 0, -2, -65536, -65532] := by decide +kernel

/-- 4.2, the worked evaluation of slot 25 for frame 5000: records 4, 6, 9 and 11. -/
def worked25 : Evaluation where
  target := 25
  frame := 5000
  bank := some .a
  snap :=
    { records :=
        [⟨4, 24, some ([0, 0, 0] ++ [4096, 8192, 12288, 16384, 16384, 16384, 12288, 8192] ++
            List.replicate 109 0), 640, 39996, 120, 40116⟩,
          ⟨6, 26, some (List.replicate 120 9), 800, 39980, 120, 40100⟩,
          ⟨9, 37, some ([-3000, -6000, -9000, -12000] ++ List.replicate 196 0), 640, 40001, 200,
            40201⟩,
          ⟨11, 24, none, -512, 40010, 256, 40266⟩]
      blanking := 3
      slotPart := none }
  done := [⟨24, some ⟨4096, 1⟩⟩, ⟨26, none⟩, ⟨37, some ⟨-2458, 3⟩⟩]
  waiting := []

theorem test_worked_evaluation :
    (predictedSums worked25).toList = [20, 40, 60, 80, 89, 98, 86, 75] ∧
      partialOf worked25 = true := by decide +kernel

/-- 4.3, the variants of the same block: taps of weight 8192 on station 3 (LOCKED, y2 −40) and of
4096 on station 4 (UNLOCKED). -/
def variant (limit : Nat) (shock : Bool) (supp : SuppressionState) (d : DriveState) : SlotSnap :=
  ⟨limit, [⟨8192, true, shock, -40⟩, ⟨4096, false, false, 0⟩], supp, d⟩

theorem test_block_variants :
    let b := fun p => slotBlock p #v[20, 40, 60, 80, 89, 98, 86, 75] true
    (b (variant 8192 false .clear .active)).values.toList = [0, 20, 40, 60, 69, 78, 66, 55] ∧
    ((b (variant 60 false .clear .active)).values.toList = [0, 20, 40, 60, 60, 60, 60, 55] ∧
      (b (variant 60 false .clear .active)).clipped = true) ∧
    (b (variant 60 false .awaitingClear .parked)).suppressed = true ∧
    (b (variant 8192 false .clear .parked)).parked = true ∧
    (b (variant 80 true .clear .active)).values.toList = [20, 40, 60, 80, 80, 80, 80, 75] := by
  decide +kernel

/-- 5.5, the worked step: an update of 16 on a gain of 4096, up and down. -/
theorem test_gain_update_up :
    tget (after .gainUpdate lawful).store.bankA.lists 24 = [⟨25, 4112, 1⟩] ∧
      (after .gainUpdate lawful).adaptation.steps = [] := by decide +kernel

theorem test_gain_update_down :
    (tget (after .gainUpdate (stepping 0 0 false)).store.bankA.lists 24).map (·.gain) = [4080] := by
  decide +kernel

/-- 6.4: with a16 = 4 and both outputs 0, a residual of 100 gives 25 and 6; and 6, "station 3
through frame 5001", samples 40012 and 40015. -/
theorem test_filter_steps :
    (let st := StationState.filterStep 4 100 coldStation; (st.y1, st.y2)) = (25, 6) ∧
    (let st := StationState.filterStep 4 (-14) { coldStation with y1 := 3, y2 := 2 };
      (st.y1, st.y2)) = (-1, 1) ∧
    (let st := StationState.filterStep 4 (-37) { coldStation with y1 := -10, y2 := -2 };
      (st.y1, st.y2)) = (-17, -6) := by decide +kernel

/-- 6.6: the mean of −71 over 6 residuals is −11. -/
theorem test_frame_mean : Account.mean { freshAccount 5001 true with sum := -71, count := 6 } = -11 := by
  decide +kernel

/-- 6.3: R and T are clipped to ± 32767. -/
theorem test_station_values :
    rotational .normal (30000, -30000) = 32767 ∧ translational (30000, -30000) = 0 ∧
      translational (-20000, -20000) = -32767 := by decide +kernel

/-- 1.11, Sequence A: slot 25's NOTICE at 16001 with start 16010 and limit 60 is TAKEN-LATE. -/
theorem test_notice_taken_late :
    let s := after (.notice 25 ⟨0, 41, BitVec.ofInt 16 (-512), 16010, some 60⟩)
      { present25 with now := 16001 }
    (getRecord 0 s).state = .pending ∧ (getRecord 0 s).endPoint = 16070 ∧
      (getRecord 0 s).late = true ∧ (getRecord 0 s).provisional = true ∧ s.cache.queue = [41] ∧
      (getLink 25 s).window = .upstream (some ⟨true, .takenLate, 0⟩) := by decide +kernel

/-- Sequence A: at 16001 a start of 20200 is TOO-FAR. -/
theorem test_notice_too_far :
    let s := after (.notice 25 ⟨1, 40, 800, 20200, none⟩) { present25 with now := 16001 }
    (getLink 25 s).window = .upstream (some ⟨true, .tooFar, 1⟩) ∧
      s.port.latched = Flag.noticeRefused.bit := by decide +kernel

/-- Sequence A: the CLOSE at 16017 with end stamp 16030 cuts a record that started at 16010. -/
theorem test_close_cuts :
    (getRecord 4 (after (.close 25 3 16030)
      { holding (motion .running 16010 44) with now := 16017 })).endPoint = 16030 := by
  decide +kernel

/-- 3.7, Sequence E, steps 4 and 5: SELF at position 2, ORDER at position 2. -/
theorem test_list_faults :
    let l := fun (ts : List Byte) => ts.map fun t => (⟨t, 1, 1⟩ : RawEntry)
    let body := fun ts => (after (.listWrite (.fields ⟨26, l ts⟩)) present25).port.held.body
    body [13, 25, 26, 27] = .badList .self (some 2) ∧
      body [13, 38, 27] = .badList .order (some 2) := by decide +kernel

/-- Sequence E, step 6: one delay clipped, 20 becomes 15. -/
theorem test_list_delay_clipped :
    let s := after .listWriteGrant (after (.listWrite (.fields ⟨26, [⟨13, 1, 2⟩, ⟨100, 1, 20⟩]⟩)) present25)
    tget s.store.bankB.lists 26 = [⟨13, 1, 2⟩, ⟨100, 1, 15⟩] ∧
      s.port.held = okWith (.listWritten .b 2 1 2) := by decide +kernel

/-- 1.2: at E + 15 the record is retired before a message or a SOURCE-QUERY of that chassis time
sees it. -/
theorem test_record_events_come_first :
    (after (.sourceQuery (.fields ⟨0, 4, 0, 0⟩)) (holding (motion .tail 39866 120))).port.held =
      okWith (.freeRecord 40001 4) := by decide +kernel

/-- R152: a message of window 2, which begins in the second sample period, finds windows 0 and 1
over, whatever the queue left out; in the first it has no effect. -/
theorem test_windows_in_order :
    (let s := after (.malformedMessage 26) present25;
      (getLink 25 s).window = .over ∧ (getLink 25 s).missRun = 1 ∧
        (getLink 26 s).window = .upstream (some ⟨false, .none, 0⟩) ∧
        (getLink 27 s).window = .upstream none) ∧
    (getLink 26 (after (.malformedMessage 26) early25)).window = .upstream none := by decide +kernel

/-- R153: no message of window 1 can have been received in the first sample period of its frame. -/
theorem test_message_not_before_its_tenth_byte :
    (getLink 25 (after (.malformedMessage 25) early25)).window = .upstream none ∧
      (getLink 25 (after (.malformedMessage 25) present25)).window =
        .upstream (some ⟨false, .none, 0⟩) := by decide +kernel

/-- R152: the evaluation of window 2, whose turnaround ends at bit period 1240, has ended with the
second sample period of the frame, and a RESTART-WARM in the third abandons none. -/
theorem test_evaluation_ends_with_its_turnaround :
    let s := after .chassisTimeAdvance
      (modLink 26 (fun l => { l with detected := .present }) passed25)
    s.now = 40002 ∧ s.prediction.evaluations.length = 0 ∧
      (getLink 26 s).window.place = some .phaseEnd ∧
      (getLink 26 s).window.isEvaluating = false := by decide +kernel

/-- R73, R152: by the FEED of slot 25 the evaluation of slot 13 in the same window has ended too,
with its read made, and a RESTART-WARM right after abandons none. -/
theorem test_feed_phase_begins_on_every_row :
    let s := after (.feed 25) turnaround
    s.prediction.evaluations.length = 0 ∧ (getLink 25 s).window = .over ∧
      (getLink 13 s).window.place = some .phaseEnd ∧
      (getLink 13 s).window.isEvaluating = false ∧
      (getRing (slotTarget 13) s).length = 1 := by decide +kernel

/-- R152: a read of slot 13's evaluation finds the upstream phase of slot 37, in the same window,
ended and counted. -/
theorem test_turnaround_begins_on_every_row :
    let s := after .predictionListRead lastPhase
    (getLink 37 s).window.isUpstream = false ∧
      s.prediction.evaluations.map (·.waiting) = [[], [25]] := by decide +kernel

/-- Assumption 24: with H = 1 a trigger between the boundary's reaching and its FRAME_BOUNDARY makes
a hold that expires at it. -/
theorem test_hold_of_one_frame_expires :
    let s := { present25 with settings := { present25.settings with
      global := { present25.settings.global with shockHold := 1 } } }
    let t := after (.holdExpiry 25) (after (.frameBoundary []) (trigger 25 (reached s)))
    (getSuppression 25 t).state = .clear ∧ (getSuppression 25 t).hold = 0 := by decide +kernel

/-- R38, R47, R49: ids queued while the port was LENT start at the RECLAIM, so a LEND right after it
is answered LEND-PENDING. -/
theorem test_reclaim_starts_the_head :
    let lent := { queueOf16 with cache := { queueOf16.cache with port := .lent } }
    let s := after (.lend (.fields ())) (after (.reclaim (.fields ())) lent)
    s.cache.port = .lendPending ∧ s.cache.flight = some ⟨0, 100, 2⟩ ∧
      s.port.held = okWith (.port .lendPending) := by decide +kernel

/-- R38, R40: at a completion with an id queued the next fetch starts. -/
theorem test_completion_starts_the_head :
    let s := after (.lend (.fields ())) (after (.fetchCompleteGood [5])
      (fetching { present25 with cache := { present25.cache with queue := [300] } }))
    s.cache.port = .lendPending ∧ s.cache.flight = some ⟨0, 300, 2⟩ := by decide +kernel

/-- R39, R45: a NOTICE or a DROP of the profile that a due start would replace comes first where the
queue has it first, and after the start where the queue names that. -/
theorem test_start_yields :
    let notice : Instr := .notice 25 ⟨3, 7, 640, 40016, none⟩
    (after (.cacheRead (.fields ())) (after notice (crowded 0))).cache.flight = none ∧
      (after notice (after .fetchStart (crowded 0))).cache.flight = some ⟨7, 300, 2⟩ ∧
      (after notice (after .fetchStart (crowded 0))).cache.queue = [7] ∧
      (after (.drop (.fields 7)) (crowded 0)).port.held = okResponse ∧
      (after (.drop (.fields 3)) (crowded 0)).cache.flight = some ⟨7, 300, 2⟩ := by decide +kernel

/-- R152: the upstream phase of a window ends on every row at one place, so once one row's has ended
no message of another row's window is received. -/
theorem test_phases_end_together :
    (getLink 25 (after (.malformedMessage 25)
      (after (.upstreamPhaseEnd 37) present25))).window = .upstream none := by
  decide +kernel

/-- R172: the frame of a transaction that RESET cut off is not taken after the reset's end. -/
theorem test_cut_off_frame :
    let s := after .coldResetEnd (after .resetLine (after .transactionStart present25))
    (after (.lend (.fields ())) s).cache.port = .owned ∧
      (after (.lend (.fields ())) (after (.lend (.fields ())) s)).cache.port = .lent := by
  decide +kernel

/-- R94: of two steps of one moment the lower target keeps its place at the limit of 256 updates,
whichever the part takes first. -/
theorem test_limit_in_order_of_target :
    let st := fun (t : Target) (n : Nat) =>
      (⟨⟨40000, 2⟩, t, .a, List.replicate n ⟨24, true, 16, 24576⟩, false⟩ : Step)
    (queueStep (st 25 200) (queueStep (st 37 57) present25)).adaptation.steps = [st 25 200] ∧
    (queueStep (st 37 56) (queueStep (st 25 200) present25)).adaptation.steps =
      [st 25 200, st 37 56] := by decide +kernel

/-- R94: an update granted between the arrivals of one boundary does not let the later arrival of
the lower target's step fall behind. -/
theorem test_grant_between_steps_of_a_moment :
    let st := fun t : Target =>
      (⟨⟨40000, 2⟩, t, .a, [⟨24, true, 16, 24576⟩], false⟩ : Step)
    let old : Step := ⟨⟨39992, 2⟩, 30, .a, [⟨24, true, 16, 24576⟩], false⟩
    let s := after .gainUpdate (queueStep (st 37) (setSteps [] [old] present25))
    s.adaptation.steps = [st 37] ∧ (queueStep (st 25) s).adaptation.steps = [st 25, st 37] := by
  decide +kernel

/-- R74: an update granted before the read of its list is seen by that read. -/
theorem test_update_seen :
    (after .predictionListRead (after .gainUpdate between)).prediction.evaluations.map (·.done) =
      [[⟨13, none⟩, ⟨24, some ⟨4112, 1⟩⟩]] := by decide +kernel

/-- 2.1, the check examples. -/
theorem test_page_checks :
    (encodePage [1000, BitVec.ofInt 16 (-2000), 16384, BitVec.ofInt 16 (-1)])[2]? = some 0x3C1B ∧
    (encodePage [BitVec.ofInt 16 (-30000), BitVec.ofInt 16 (-20000)])[2]? = some 0x3CB2 ∧
    (encodePage [0])[2]? = some 0x0001 := by decide +kernel

end Sys2Proof.Tests
end

section
/-! PROOF. The reading of stamps (R7): which time `readStamp` answers, and that no other time near
`now` has the stamp as its low 16 bits. -/

namespace Sys2Proof.Machine

@[simp] theorem setWidth_signExtend_half (d : Half) : (d.signExtend 32).setWidth 16 = d := by
  apply BitVec.eq_of_getElem_eq
  intro i hi
  rw [BitVec.getElem_setWidth, BitVec.getLsbD_signExtend]
  have hi32 : i < 32 := by omega
  simp [hi, hi32]

/-- A difference of times that a half word can hold is its own low half, extended. -/
theorem signExtend_setWidth_of_near (d : Time) (hlo : -32768 ≤ d.toInt) (hhi : d.toInt ≤ 32767) :
    (d.setWidth 16).signExtend 32 = d := by
  apply BitVec.eq_of_toInt_eq
  calc ((d.setWidth 16).signExtend 32).toInt
      = (d.setWidth 16).toInt := BitVec.toInt_signExtend_of_le (by decide)
    _ = (d.toNat : Int).bmod (2 ^ 16) := BitVec.toInt_setWidth d
    _ = d.toInt.bmod (2 ^ 16) := by
      rw [BitVec.toInt_eq_toNat_bmod, Int.bmod_bmod_of_dvd (by decide)]
    _ = d.toInt := Int.bmod_eq_of_le (by omega) (by omega)

theorem setWidth_half_sub (t u : Time) :
    (t - u).setWidth 16 = (t.setWidth 16 - u.setWidth 16 : Half) := by
  rw [eq_sub_iff_add_eq, ← BitVec.setWidth_add _ _ (by decide), sub_add_cancel]

/-- The low half of a time is the stamp exactly where R7's remainder is. -/
theorem setWidth_half_eq_iff (t : Time) (stamp : Half) :
    t.setWidth 16 = stamp ↔ t.toNat % 65536 = stamp.toNat := by
  rw [← BitVec.toNat_inj, BitVec.toNat_setWidth]

/-- A stamp is read as a time of which it is the low half. -/
@[simp] theorem setWidth_readStamp (now : Time) (stamp : Half) :
    (readStamp now stamp).setWidth 16 = stamp := by
  unfold readStamp
  rw [BitVec.setWidth_add _ _ (by decide), setWidth_signExtend_half, add_sub_cancel]

/-- The time a stamp is read as lies as far from `now` as the stamp, read as a signed half word,
lies from the low half of `now`. -/
theorem toInt_readStamp_sub_now (now : Time) (stamp : Half) :
    (readStamp now stamp - now).toInt = (stamp - now.setWidth 16 : Half).toInt := by
  unfold readStamp
  rw [add_sub_cancel_left, BitVec.toInt_signExtend_of_le (by decide)]

/-- A time near `now` is what its own low half is read as. -/
theorem readStamp_setWidth_of_near (now t : Time) (hlo : -32768 ≤ (t - now).toInt)
    (hhi : (t - now).toInt ≤ 32767) : readStamp now (t.setWidth 16) = t := by
  unfold readStamp
  rw [← setWidth_half_sub, signExtend_setWidth_of_near _ hlo hhi, add_sub_cancel]

/-- Settles O19: the time read has the stamp as its low half and a signed half word as its distance
from `now`; and a time near `now` is the reading of its own low half. -/
theorem stampsReadAsTheOneNearTime : Obligations.StampsReadAsTheOneNearTime := by
  unfold Obligations.StampsReadAsTheOneNearTime
  intro now stamp
  refine ⟨⟨(setWidth_half_eq_iff _ _).1 (setWidth_readStamp now stamp), ?_, ?_⟩, ?_⟩
  · rw [toInt_readStamp_sub_now]
    exact BitVec.le_toInt _
  · rw [toInt_readStamp_sub_now]
    exact BitVec.toInt_le
  · intro t hlow hlo hhi
    obtain rfl := (setWidth_half_eq_iff t stamp).2 hlow
    exact (readStamp_setWidth_of_near now t hlo hhi).symm

end Sys2Proof.Machine
end

section
/-! PROOF. SWAP-REQUEST and SWAP-CANCEL (R60, R62): what each does by the swap-pending flag, and
what a frame of each that is taken answers. -/

namespace Sys2Proof.Machine

section

variable {s : State}

/-! ### The two commands by the flag -/

theorem swapRequest_of_clear (h : s.store.swapPending = false) :
    swapRequest s = respond okResponse (setSwapPending true s) :=
  if_neg (Bool.eq_false_iff.mp h)

theorem swapRequest_of_pending (h : s.store.swapPending = true) :
    swapRequest s = respond (bare .swapPending) s :=
  if_pos h

theorem swapCancel_of_pending (h : s.store.swapPending = true) :
    swapCancel s = respond okResponse (setSwapPending false s) :=
  if_pos h

theorem swapCancel_of_clear (h : s.store.swapPending = false) :
    swapCancel s = respond (bare .notPending) s :=
  if_neg (Bool.eq_false_iff.mp h)

/-! ### Their frames -/

/-- The flag's change after the end of the transaction, with its answer, is a reply of the state
with the flag changed. -/
theorem respond_setSwapPending_endTransaction (r : Response) (b : Bool) (s : State) :
    respond r (setSwapPending b (endTransaction s)) =
      replied r { s with store := { s.store with swapPending := b } } := rfl

/-- A SWAP-REQUEST taken acts at once on the state in which its transaction has ended (R60). -/
theorem exec_swapRequest_of_takesFrames (h : TakesFrames s) :
    exec (.swapRequest (.fields ())) s = .next (swapRequest (endTransaction s)) :=
  manage_of_fields () (fun _ => swapRequest) h

/-- A SWAP-CANCEL taken acts at once on the state in which its transaction has ended (R62). -/
theorem exec_swapCancel_of_takesFrames (h : TakesFrames s) :
    exec (.swapCancel (.fields ())) s = .next (swapCancel (endTransaction s)) :=
  manage_of_fields () (fun _ => swapCancel) h

end

/-- Settles O44: each command acts on the state in which its transaction has ended, whose
swap-pending flag is the one before it; by that flag it changes the flag or only answers. -/
theorem swapCommandsSetAndClearThePendingFlag :
    Obligations.SwapCommandsSetAndClearThePendingFlag := by
  unfold Obligations.SwapCommandsSetAndClearThePendingFlag
  refine ⟨fun s hs => ⟨fun hclear => ?_, fun hpending => ?_⟩,
    fun s hs => ⟨fun hpending => ?_, fun hclear => ?_⟩⟩
  · rw [exec_swapRequest_of_takesFrames hs, swapRequest_of_clear (by rwa [endTransaction_store]),
      respond_setSwapPending_endTransaction, okResponse]
  · rw [exec_swapRequest_of_takesFrames hs, swapRequest_of_pending (by rwa [endTransaction_store]),
      respond_endTransaction, bare]
  · rw [exec_swapCancel_of_takesFrames hs, swapCancel_of_pending (by rwa [endTransaction_store]),
      respond_setSwapPending_endTransaction, okResponse]
  · rw [exec_swapCancel_of_takesFrames hs, swapCancel_of_clear (by rwa [endTransaction_store]),
      respond_endTransaction, bare]

end Sys2Proof.Machine
end

section
/-! PROOF. The small changes that every command is made of, block by block, each with the condition
under which the part makes it; and paths of such changes. A law of the state is kept by every
command once each small change keeps it. -/

namespace Sys2Proof.Machine

/-- Changes of the Source Table: a live record changed in place, one retired, a FREE one filled
(R4, R5, R11). -/
inductive TableChange (s : State) : State → Prop
  | restate (r : RecordNo) (v : SourceRecord) (hr : isLive (getRecord r s) = true)
      (hv : isLive v = true) (hslot : v.slot = (getRecord r s).slot)
      (htag : v.tag = (getRecord r s).tag) (hprofile : v.profile = (getRecord r s).profile) :
      TableChange s (setRecord r v s)
  | retire (r : RecordNo) (hr : isLive (getRecord r s) = true) : TableChange s (retire r s)
  | fill (r : RecordNo) (v : SourceRecord) (hr : isLive (getRecord r s) = false)
      (hv : isLive v = true) (htag : findTag v.slot v.tag s = none)
      (hlive : getLive v.slot s < 3) (hpresent : (getLink v.slot s).effective = .present) :
      TableChange s
        (modLive v.slot (· + 1) (setRecord r v (modCount v.profile (· + 1) s)))

/-- Changes of the Profile Cache (chapter 02). -/
inductive CacheChange (s : State) : State → Prop
  | fetch (id : ProfileId) (rest : List ProfileId) (c : CacheNo) (hf : s.cache.flight = none)
      (hp : s.cache.port = .owned) (hq : s.cache.queue = id :: rest)
      (hc : fetchTarget s = some c) : CacheChange s (fetchInto c id rest s)
  | fill (f : Flight) (page : List Int) (hf : s.cache.flight = some f) (hlow : 1 ≤ page.length)
      (hhigh : page.length ≤ 256) : CacheChange s (fillSlot f page s)
  | fail (f : Flight) (hf : s.cache.flight = some f) : CacheChange s
      { s with cache := { s.cache with
          slots := tset s.cache.slots f.slot .empty
          unusable := tset s.cache.unusable f.id true
          flight := none } }
  | port (p : PortState) (h : p = .lent → s.cache.flight = none) :
      CacheChange s { s with cache := { s.cache with port := p } }
  | enqueue (id : ProfileId) (hu : unusable id s = false) (ha : absentProfile id s = true)
      (hq : queueFull s = false) : CacheChange s (enqueue id s)
  | touch (c : CacheNo) (h : (tget s.cache.slots c).isFilled = true) : CacheChange s (touch c s)
  | makeUsable (id : ProfileId) : CacheChange s (makeUsable id s)
  | retry (id : ProfileId) (hu : unusable id s = true) (hq : queueFull s = false) :
      CacheChange s (Machine.enqueue id (Machine.makeUsable id s))
  | empty (c : CacheNo) (h : (tget s.cache.slots c).replaceable = true) :
      CacheChange s (emptySlot c s)
  | reclaim : CacheChange s (reclaimLent s)

/-- A writing command is judged good on the store as it stands (3.2, R57, R59). -/
def judgedGood (e : Executing) (s : State) : Prop :=
  match e with
  | .listWrite source l _ =>
    s.store.swapPending = false ∧ ListLaw source l ∧
      poolExceeded (s.store.bank s.store.staging) source l.length = false
  | .captureEmpty => s.store.swapPending = false
  | .captureCopy _ => False
  | .listRead _ _ => True
  | .sourceList _ _ => True

/-- Changes of the Coupling Store and of the command in execution on it (chapter 03). -/
inductive StoreChange (s : State) : State → Prop
  | pending (b : Bool) (h : frameRefused s = false) :
      StoreChange s (setSwapPending b (endTransaction s))
  | begin (e : Executing) (h : frameRefused s = false) (he : judgedGood e s) :
      StoreChange s (execute e (endTransaction s))
  | written (source : Slot) (l : List Entry) (n : Nat) (r : Response)
      (h : s.port.executing = some (.listWrite source l n)) :
      StoreChange s (finish r (portAccess (writeStaging source l s)))
  | answered (r : Response) : StoreChange s (finish r (portAccess s))
  | emptied (h : s.port.executing = some .captureEmpty) :
      StoreChange s
        (execute (.captureCopy 0) (portAccess (setStore (s.store.setBank s.store.staging emptyBank) s)))
  | copied (source next : Slot) (h : s.port.executing = some (.captureCopy source))
      (hn : next.val = source.val + 1) :
      StoreChange s (execute (.captureCopy next) (copyList source s))
  | captured (source : Slot) (r : Response) (h : s.port.executing = some (.captureCopy source)) :
      StoreChange s (finish r (copyList source s))
  | swap (h : s.store.swapPending = true) :
      StoreChange s (setStore { s.store with active := s.store.active.other, swapPending := false } s)
  | update (bank : BankName) (t : Target) (u : GainUpdate) :
      StoreChange s (setStore (applyUpdate s.store bank t u) s)

/-- Changes of the Prediction Engine, with the windows that wait for it (chapter 04). -/
inductive PredictionChange (s : State) : State → Prop
  | begin (t : Target) (f : Frame) : PredictionChange s (beginEvaluation t f s)
  | read : PredictionChange s
      (setGaps true false (setEvaluations (grantRead s.store s.prediction.evaluations) s))
  | reads (t : Target) : PredictionChange s
      (setGaps true false (setEvaluations (s.prediction.evaluations.map fun e =>
        if e.target ≤ t then e.readAll s.store else e) s))
  | ended (e : Evaluation) (bank : BankName) (hf : findEvaluation e.target s = some e)
      (hw : e.waiting = []) (hb : e.bank = some bank) : PredictionChange s (endInto e bank s)
  | abandoned (slot : Slot) : PredictionChange s
      (modLink slot (fun l => { l with window := l.window.abandon absentBlock })
        (dropEvaluation (slotTarget slot) s))
  | emptied (t : Target) : PredictionChange s (setRing t [] s)
  | gaps (a b : Bool) : PredictionChange s (setGaps a b s)

/-- A change of an adaptation record that leaves divergence count and freezing alone. -/
def KeepsDivergence (f : AdaptRecord → AdaptRecord) : Prop :=
  ∀ a, (f a).divergence = a.divergence ∧ (f a).frozen = a.frozen

/-- Changes of the Adaptation Engine (chapter 05). -/
inductive AdaptChange (s : State) : State → Prop
  | mod (t : Target) (f : AdaptRecord → AdaptRecord) (h : KeepsDivergence f) :
      AdaptChange s (modAdapt t f s)
  | map (f : AdaptRecord → AdaptRecord) (h : KeepsDivergence f) : AdaptChange s
      { s with adaptation := { s.adaptation with records := s.adaptation.records.map f } }
  | queued (st : Step) (hu : st.updates ≠ []) (hf : (getAdapt st.target s).frozen = false) :
      AdaptChange s (openMoment ((momentOf st s.adaptation).take st) s)
  | ended (st : Step) (rest : List Step) (h : s.adaptation.steps = st :: rest) :
      AdaptChange s (setSteps [] rest s)
  | stepped (st : Step) (rest : List Step) (u : GainUpdate) (more : List GainUpdate) (mark : Bool)
      (h : s.adaptation.steps = st :: rest) (hu : st.updates = u :: more) (hm : more ≠ []) :
      AdaptChange s (setSteps [{ st with updates := more, clipped := mark }] rest s)
  | diverged (t : Target) (d : Nat) (h : (getAdapt t s).divergence + 1 < 3) : AdaptChange s
      (modAdapt t
        (fun a => { a with divergence := a.divergence + 1, hold := d, postscaler := 0 }) s)
  | frozen (t : Target) (d : Nat) (h : 3 ≤ (getAdapt t s).divergence + 1) : AdaptChange s
      (cutSteps t (modAdapt t
        (fun a => { a with divergence := 3, hold := d, postscaler := 0, frozen := true }) s))

/-- A station's change that leaves its filter and its accounts as they stand, or zeroes the filter
or the residuals (R130, R133). -/
structure Calm (x y : StationState) : Prop where
  y1 : y.y1 = x.y1 ∨ y.y1 = 0
  y2 : y.y2 = x.y2 ∨ y.y2 = 0
  older : y.older = x.older ∨ y.older = x.older.clearResiduals
  newer : y.newer = x.newer ∨ y.newer = x.newer.clearResiduals

/-- Changes of the stations (chapter 06) but for what a sweep writes into the accounts. -/
inductive StationChange (s : State) : State → Prop
  | calm (k : Station) (f : StationState → StationState)
      (h : Calm (getStation k s) (f (getStation k s))) : StationChange s (modStation k f s)
  | calmAll (f : StationState → StationState) (h : ∀ x, Calm x (f x)) :
      StationChange s { s with stations := s.stations.map f }
  | filter (k : Station) (r : Int) (h : r.natAbs ≤ 32767) :
      StationChange s (modStation k (StationState.filterStep (a16 (stationSettings k s)) r) s)

/-- A suppression record's hold stands above 0 exactly in HELD, and a clear request only in HELD. -/
def HoldOk (r : SuppressionRecord) : Prop :=
  (r.state = .held ↔ 0 < r.hold) ∧ (r.clearRequested = true → r.state = .held)

/-- Changes of the suppression records (chapter 07). -/
inductive SuppressionChange (s : State) : State → Prop
  | mod (slot : Slot) (f : SuppressionRecord → SuppressionRecord)
      (h : HoldOk (getSuppression slot s) → HoldOk (f (getSuppression slot s))) :
      SuppressionChange s (modSuppression slot f s)
  | map (f : SuppressionRecord → SuppressionRecord) (h : ∀ r, HoldOk r → HoldOk (f r)) :
      SuppressionChange s { s with suppression := s.suppression.map f }
  | held (slot : Slot) : SuppressionChange s
      (modSuppression slot (fun r => { r with
        state := .held, hold := s.settings.global.shockHold, clearRequested := false }) s)

/-- Changes of the row links that move no window of the frame (chapter 08). -/
inductive LinkChange (s : State) : State → Prop
  | mod (slot : Slot) (f : LinkSlot → LinkSlot)
      (hw : (f (getLink slot s)).window = (getLink slot s).window)
      (he : (f (getLink slot s)).effective = (getLink slot s).effective ∨
        (f (getLink slot s)).effective = .present ∨
        ∀ r : RecordNo, isLive (getRecord r s) = true → (getRecord r s).slot ≠ slot) :
      LinkChange s (modLink slot f s)

/-- Changes of the management port's own state (chapter 09). -/
inductive PortChange (s : State) : State → Prop
  | endTransaction : PortChange s (endTransaction s)
  | respond (r : Response) : PortChange s (respond r s)
  | start : PortChange s (transactionStart s)
  | untaken : PortChange s (untakenStart s)
  | mask (m : BitVec 12) : PortChange s { s with port := { s.port with mask := m } }
  | latch (f : Flag) : PortChange s (latch f s)

/-- Changes of chassis time and of the boundary's phase (R151), but for the taking of a boundary. -/
inductive TimeChange (s : State) : State → Prop
  | tick (h : s.boundary = .quiet) : TimeChange s
      { s with
        now := s.now + 1
        boundary := if (s.now + 1).toNat % 8 = 0 then .reached else s.boundary }
  | quiet (h : s.boundary ≠ .reached) : TimeChange s { s with boundary := .quiet }

/-- Changes of a window of the frame (R152, R153). -/
inductive WindowChange (s : State) : State → Prop
  | answer (slot : Slot) (a : Answer) : WindowChange s (setAnswer slot a s)
  | feedPhase (slot : Slot) (m : Option Answer) (b : PendingBlock) :
      WindowChange s (setFeedPhase slot m b s)
  | sent (slot : Slot) (f : Feed) :
      WindowChange s (modLink slot (fun l => { l with window := .over, sent := some f }) s)

/-- What a frame boundary alone changes: the accounts' frames, the windows (R131, R152). -/
inductive FrameChange (s : State) : State → Prop
  | shift (k : Station) (g : Frame) : FrameChange s (modStation k (StationState.shiftAccounts g) s)
  | opened : FrameChange s (openFrame s)

/-- What a sweep alone changes: the taken sets and the residuals of the accounts (R121, R126). -/
inductive SweepChange (s : State) : State → Prop
  | period (k : Station) (f : Frame) (i : Fin 8) :
      SweepChange s (modStation k (StationState.modAccount f (Account.take i)) s)
  | residual (k : Station) (f : Frame) (r : Int) :
      SweepChange s (modStation k (StationState.modAccount f (Account.add r)) s)

/-- The state that a warm reset leaves where no boundary is still to be taken (R171). -/
def warmed (cause : ResetCause) (s : State) : State :=
  { s with
    table := emptyTable
    cache := s.cache.warm
    store := { s.store with swapPending := false }
    prediction := emptyPrediction
    adaptation :=
      ⟨s.adaptation.records.map (AdaptRecord.warm s.settings.global.settle), [], none, false⟩
    stations := s.stations.map (StationState.warm (frameOf s.now))
    suppression := Vector.replicate 96 clearSuppression
    links := { s.links with slots := s.links.slots.map LinkSlot.warm }
    port := s.port.warm cause }

/-- The kinds of small changes: `plain` the changes of one block that any command may bring; the
others those of certain commands alone. -/
inductive Kind
  | plain | time | opened | window | taken | frame | sweep | boundary | settings | flags | warm | cold
  deriving DecidableEq

/-- A small change of the state, of a kind. -/
inductive Change : Kind → State → State → Prop
  | table {s t : State} (h : TableChange s t) : Change .plain s t
  | cache {s t : State} (h : CacheChange s t) : Change .plain s t
  | store {s t : State} (h : StoreChange s t) : Change .plain s t
  | prediction {s t : State} (h : PredictionChange s t) : Change .plain s t
  | adapt {s t : State} (h : AdaptChange s t) : Change .plain s t
  | station {s t : State} (h : StationChange s t) : Change .plain s t
  | suppression {s t : State} (h : SuppressionChange s t) : Change .plain s t
  | link {s t : State} (h : LinkChange s t) : Change .plain s t
  | port {s t : State} (h : PortChange s t) : Change .plain s t
  | time {s t : State} (h : TimeChange s t) : Change .time s t
  | opened (s : State) : Change .opened s (endColdReset s)
  | taken (s : State) : Change .taken s { s with boundary := .taken }
  | window {s t : State} (h : WindowChange s t) : Change .window s t
  | frame {s t : State} (h : FrameChange s t) : Change .frame s t
  | sweep {s t : State} (h : SweepChange s t) : Change .sweep s t
  | boundary (acts : List BoundaryAct) (s : State) (hd : (cyclesOf acts).Nodup)
      (h : s.boundary = .reached) :
      Change .boundary s (takeFrameBoundary acts s)
  | settings (site : SettingSite) (v : SettingValue) (g : Settings) (s : State)
      (h : s.settings.write site v = some g) : Change .settings s { s with settings := g }
  | flags (s : State) : Change .flags s { s with port := { s.port with latched := 0 } }
  | warm (cause : ResetCause) (s : State) (h : s.boundary = .quiet) :
      Change .warm s (warmed cause s)
  | cold (cause : ResetCause) (cutOff : Bool) (s : State) :
      Change .cold s (State.cold cause cutOff s.pending)

/-- A path of small changes of the kinds listed. -/
def Moves (K : List Kind) : State → State → Prop :=
  Relation.ReflTransGen fun s t => ∃ k ∈ K, Change k s t

/-! ### Paths -/

namespace Moves

variable {K L : List Kind} {s t u : State}

theorem refl (s : State) : Moves K s s := Relation.ReflTransGen.refl

theorem trans (h : Moves K s t) (h' : Moves K t u) : Moves K s u := Relation.ReflTransGen.trans h h'

theorem single {k : Kind} (hk : k ∈ K) (h : Change k s t) : Moves K s t :=
  Relation.ReflTransGen.single ⟨k, hk, h⟩

theorem mono (hKL : K ⊆ L) (h : Moves K s t) : Moves L s t :=
  Relation.ReflTransGen.mono (fun _ _ ⟨k, hk, hc⟩ => ⟨k, hKL hk, hc⟩) _ _ h

/-- What every small change keeps, a path keeps. -/
theorem keeps {P : State → Prop} (hP : ∀ k ∈ K, ∀ s t, Change k s t → P s → P t)
    (h : Moves K s t) (hs : P s) : P t := by
  induction h with
  | refl => exact hs
  | tail _ hc ih =>
    obtain ⟨k, hk, hc⟩ := hc
    exact hP k hk _ _ hc ih

/-- A fold is a path where each of its steps is. -/
theorem foldl {α : Type} (f : State → α → State) (h : ∀ s a, Moves K s (f s a)) (l : List α)
    (s : State) : Moves K s (l.foldl f s) := by
  induction l generalizing s with
  | nil => exact refl s
  | cons a l ih => exact (h s a).trans (ih _)

end Moves

/-- A path of plain changes. -/
abbrev Plain : State → State → Prop := Moves [.plain]

/-- A path of plain changes is one of any kinds among which they are. -/
theorem Moves.widen {K : List Kind} {s t : State} (h : Plain s t) (hK : Kind.plain ∈ K) :
    Moves K s t :=
  h.mono fun _ hk => List.mem_singleton.mp hk ▸ hK

theorem Plain.of {s t : State} (h : Change .plain s t) : Plain s t :=
  Moves.single (List.mem_singleton.mpr rfl) h

/-! ### What each block's changes leave alone -/

section

variable {s t : State}

theorem TableChange.frame (h : TableChange s t) :
    t = { s with table := t.table, cache := { s.cache with slots := t.cache.slots } } := by
  cases h <;> rfl

theorem CacheChange.frame (h : CacheChange s t) : t = { s with cache := t.cache } := by
  cases h <;> rfl

theorem StoreChange.frame (h : StoreChange s t) :
    t = { s with
      store := t.store, port := t.port
      prediction := { s.prediction with gap := t.prediction.gap }
      adaptation := { s.adaptation with gap := t.adaptation.gap } } := by
  cases h <;> rfl

theorem endInto_frame (e : Evaluation) (bank : BankName) (s : State) :
    endInto e bank s =
      { s with
        prediction := (endInto e bank s).prediction
        links := { s.links with slots := (endInto e bank s).links.slots } } := by
  unfold endInto
  dsimp only
  split <;> rfl

theorem PredictionChange.frame (h : PredictionChange s t) :
    t = { s with
      prediction := t.prediction
      adaptation := { s.adaptation with gap := t.adaptation.gap }
      links := { s.links with slots := t.links.slots } } := by
  cases h with
  | ended e bank hf hw hb => rw [endInto_frame]
  | begin t f => rfl
  | read => rfl
  | reads t => rfl
  | abandoned slot => rfl
  | emptied t => rfl
  | gaps a b => rfl

theorem AdaptChange.frame (h : AdaptChange s t) : t = { s with adaptation := t.adaptation } := by
  cases h <;> rfl

theorem StationChange.frame (h : StationChange s t) : t = { s with stations := t.stations } := by
  cases h <;> rfl

theorem SuppressionChange.frame (h : SuppressionChange s t) :
    t = { s with suppression := t.suppression } := by
  cases h <;> rfl

theorem LinkChange.frame (h : LinkChange s t) :
    t = { s with links := { s.links with slots := t.links.slots } } := by
  cases h
  rfl

theorem PortChange.frame (h : PortChange s t) : t = { s with port := t.port } := by
  cases h <;> rfl

theorem TimeChange.frame (h : TimeChange s t) :
    t = { s with now := t.now, boundary := t.boundary } := by
  cases h <;> rfl

theorem WindowChange.frame (h : WindowChange s t) :
    t = { s with links := { s.links with slots := t.links.slots } } := by
  cases h <;> rfl

theorem FrameChange.frame (h : FrameChange s t) :
    t = { s with stations := t.stations, links := t.links } := by
  cases h
  · rfl
  · rfl

theorem SweepChange.frame (h : SweepChange s t) : t = { s with stations := t.stations } := by
  cases h <;> rfl

end

end Sys2Proof.Machine
end

section
/-! PROOF. What every operation of the records, the cache and the store is made of: paths of small
changes. -/

namespace Sys2Proof.Machine

variable {s t : State}

/-! ### Numbers of fields -/

theorem below_eq_some {n v : Nat} {i : Fin n} : below n v = some i ↔ v = i.val := by
  unfold below
  split
  · next h => exact ⟨fun e => by cases e; rfl, fun e => by simp [e]⟩
  · next h => exact ⟨fun e => (nomatch e), fun e => absurd (e ▸ i.isLt) h⟩

theorem below_eq_none {n v : Nat} : below n v = none ↔ n ≤ v := by
  unfold below
  split
  · next h => exact ⟨fun e => (nomatch e), fun e => absurd h (by omega)⟩
  · next h => exact ⟨fun _ => by omega, fun _ => rfl⟩

/-! ### Records (R2 to R5, R22) -/

theorem isLive_iff (v : SourceRecord) : isLive v = true ↔ v.state ≠ .free := by
  simp [isLive]

/-- Start, E and now never give a live record the state FREE. -/
theorem isLive_stateAt {v : SourceRecord} {now : Time} {st : RecordState}
    (h : v.stateAt now = some st) : isLive { v with state := st } = true := by
  rw [isLive_iff]
  unfold SourceRecord.stateAt at h
  rintro rfl
  split at h
  · cases h
  · split at h
    · cases h
    · split at h <;> cases h

/-- A record that changes no more than its state is restated. -/
theorem restate_plain {r : RecordNo} {v : SourceRecord} (hr : isLive (getRecord r s) = true)
    (hv : isLive v = true) (hslot : v.slot = (getRecord r s).slot)
    (htag : v.tag = (getRecord r s).tag) (hprofile : v.profile = (getRecord r s).profile) :
    Plain s (setRecord r v s) :=
  .of (.table (.restate r v hr hv hslot htag hprofile))

theorem retire_plain {r : RecordNo} (hr : isLive (getRecord r s) = true) : Plain s (retire r s) :=
  .of (.table (.retire r hr))

theorem settleRecord_plain {r : RecordNo} (hr : isLive (getRecord r s) = true) :
    Plain s (settleRecord r s) := by
  rcases settleRecord_cases r s with ⟨st, hst, hs⟩ | ⟨-, hs⟩
  · rw [hs]
    exact restate_plain hr (isLive_stateAt hst) rfl rfl rfl
  · rw [hs]
    exact retire_plain hr

/-- A live record restated and then settled. -/
theorem settle_restated_plain {r : RecordNo} {v : SourceRecord}
    (hr : isLive (getRecord r s) = true) (hv : isLive v = true)
    (hslot : v.slot = (getRecord r s).slot) (htag : v.tag = (getRecord r s).tag)
    (hprofile : v.profile = (getRecord r s).profile) :
    Plain s (settleRecord r (setRecord r v s)) :=
  (restate_plain hr hv hslot htag hprofile).trans (settleRecord_plain (by simpa using hv))

theorem recordStart_plain (r : RecordNo) (s : State) : Plain s (recordStart r s) := by
  unfold recordStart
  split
  · next h => exact restate_plain (by simp [isLive_iff, h.1]) rfl rfl rfl rfl
  · exact .refl s

theorem recordEnd_plain (r : RecordNo) (s : State) : Plain s (recordEnd r s) := by
  unfold recordEnd
  split
  · next h => exact restate_plain (by simp [isLive_iff, h.1]) rfl rfl rfl rfl
  · exact .refl s

theorem recordRetirement_plain (r : RecordNo) (s : State) : Plain s (recordRetirement r s) := by
  unfold recordRetirement
  split
  · next h => exact retire_plain (by simp [isLive_iff, h.1])
  · exact .refl s

theorem takeRecordEvents_plain (s : State) : Plain s (takeRecordEvents s) := by
  refine Moves.foldl _ (fun s r => ?_) _ s
  split
  · next h => exact settleRecord_plain (by simp [recordDue] at h; exact h.1)
  · exact .refl s

/-- Retiring one record leaves another as it stands. -/
theorem getRecord_retire_of_ne {r q : RecordNo} (h : q ≠ r) (s : State) :
    getRecord q (retire r s) = getRecord q s :=
  (retire_spec r s).2.1 q h

/-- Live records that are all different are retired one after another. -/
theorem retireAll_plain (l : List RecordNo) (hl : l.Nodup) (s : State)
    (hlive : ∀ r ∈ l, isLive (getRecord r s) = true) :
    Plain s (l.foldl (fun s r => retire r s) s) := by
  induction l generalizing s with
  | nil => exact .refl s
  | cons r l ih =>
    obtain ⟨hr, hl⟩ := List.nodup_cons.mp hl
    refine (retire_plain (hlive r (by simp))).trans (ih hl _ fun q hq => ?_)
    have hne : q ≠ r := fun e => hr (e ▸ hq)
    rw [getRecord_retire_of_ne hne]
    exact hlive q (by simp [hq])

theorem mem_liveOfSlot (slot : Slot) (r : RecordNo) (s : State) :
    r ∈ liveOfSlot slot s ↔ isLive (getRecord r s) = true ∧ (getRecord r s).slot = slot := by
  simp [liveOfSlot, getRecord]

theorem purgeSlot_plain (slot : Slot) (s : State) : Plain s (purgeSlot slot s) :=
  retireAll_plain _ (indicesWhere_nodup _ _) s fun r hr => ((mem_liveOfSlot slot r s).mp hr).1

/-- A record after a purge of records: FREE where it was among them. -/
theorem getRecord_retireAll (l : List RecordNo) (q : RecordNo) (s : State) :
    getRecord q (l.foldl (fun s r => retire r s) s) =
      if q ∈ l then freeRecord else getRecord q s := by
  induction l generalizing s with
  | nil => rfl
  | cons r l ih =>
    rw [List.foldl_cons, ih]
    by_cases hq : q ∈ l
    · simp [hq]
    · by_cases hqr : q = r
      · subst hqr
        simp [hq, (retire_spec q s).1]
      · simp [hq, hqr, getRecord_retire_of_ne hqr]

/-- A purge leaves its slot without a live record (R22). -/
theorem slot_ne_of_live_purgeSlot {slot : Slot} {q : RecordNo} {s : State}
    (h : isLive (getRecord q (purgeSlot slot s)) = true) :
    (getRecord q (purgeSlot slot s)).slot ≠ slot := by
  unfold purgeSlot at h ⊢
  rw [getRecord_retireAll] at h ⊢
  split at h
  · exact absurd h (by decide)
  · next hq =>
    rw [if_neg hq]
    exact fun hs => hq ((mem_liveOfSlot slot q s).mpr ⟨h, hs⟩)

/-! ### What comes before a command (R3, R38, R39) -/

theorem fetchStart_plain (s : State) : Plain s (fetchStart s) := by
  rcases fetchStart_cases s with ⟨-, hs⟩ | ⟨id, rest, c, -, hf, hp, hq, hc, hs⟩
  · rw [hs]
    exact .refl s
  · rw [hs]
    exact .of (.cache (.fetch id rest c hf hp hq hc))

theorem takeMoment_plain (s : State) : Plain s (takeMoment s) :=
  (takeRecordEvents_plain s).trans (fetchStart_plain _)

theorem takeMomentFor_plain (id : ProfileId) (s : State) : Plain s (takeMomentFor id s) := by
  unfold takeMomentFor
  split
  · exact takeRecordEvents_plain s
  · exact takeMoment_plain s

theorem beforeDrop_plain (p : Payload Half) (s : State) : Plain s (beforeDrop p s) := by
  unfold beforeDrop
  split
  · exact takeMoment_plain s
  · split
    · exact takeMomentFor_plain _ s
    · exact takeMoment_plain s

/-! ### The port (R164 to R166) -/

theorem latch_plain (f : Flag) (s : State) : Plain s (latch f s) := .of (.port (.latch f))

theorem respond_plain (r : Response) (s : State) : Plain s (respond r s) :=
  .of (.port (.respond r))

theorem endTransaction_plain (s : State) : Plain s (endTransaction s) :=
  .of (.port .endTransaction)

/-- A command does its change, before which at most the end of a cold reset comes. -/
theorem onPart_moves {K : List Kind} {held f : State → State} (hopened : Kind.opened ∈ K)
    (hheld : ∀ s, Moves K s (held s)) (hf : ∀ s, Moves K s (f s)) (h : onPart held f s = .next t) :
    Moves K s t := by
  rcases onPart_cases held f s with ⟨-, hs⟩ | ⟨-, hs⟩ | ⟨_, -, -, hs⟩ <;>
    rw [hs] at h <;> cases h
  · exact hf s
  · exact (Moves.single hopened (.opened s)).trans (hf _)
  · exact hheld s

theorem running_moves {K : List Kind} {f : State → State} (hopened : Kind.opened ∈ K)
    (hf : ∀ s, Moves K s (f s)) (h : running f s = .next t) : Moves K s t :=
  onPart_moves hopened (fun s => .refl s) hf h

theorem afterEvents_moves {K : List Kind} {f : State → State} (hopened : Kind.opened ∈ K)
    (hplain : Kind.plain ∈ K) (hf : ∀ s, Moves K s (f s)) (h : afterEvents f s = .next t) :
    Moves K s t :=
  running_moves hopened (fun s => ((takeMoment_plain s).widen hplain).trans (hf _)) h

/-- A frame that is taken does its command where its transaction was not refused. -/
theorem takeFrame_moves {K : List Kind} {α : Type} {p : Payload α} {f : α → State → State}
    (hplain : Kind.plain ∈ K)
    (hf : ∀ a s, frameRefused s = false → Moves K s (f a (endTransaction s))) (s : State) :
    Moves K s (takeFrame p f s) := by
  have hend : Moves K s (endTransaction s) := (endTransaction_plain s).widen hplain
  unfold takeFrame
  split
  · exact hend
  · next hr =>
    split
    · exact hend.trans ((respond_plain _ _).widen hplain)
    · exact hf _ s (by simpa using hr)

theorem manageAfter_moves {K : List Kind} {α : Type} {before : State → State} {p : Payload α}
    {f : α → State → State} (hopened : Kind.opened ∈ K) (hplain : Kind.plain ∈ K)
    (hbefore : ∀ s, Plain s (before s))
    (hf : ∀ a s, frameRefused s = false → Moves K s (f a (endTransaction s)))
    (h : manageAfter before p f s = .next t) : Moves K s t :=
  onPart_moves hopened (fun s => (endTransaction_plain s).widen hplain)
    (fun s => ((hbefore s).widen hplain).trans (takeFrame_moves hplain hf _)) h

theorem manage_moves {K : List Kind} {α : Type} {p : Payload α} {f : α → State → State}
    (hopened : Kind.opened ∈ K) (hplain : Kind.plain ∈ K)
    (hf : ∀ a s, frameRefused s = false → Moves K s (f a (endTransaction s)))
    (h : manage p f s = .next t) : Moves K s t :=
  manageAfter_moves hopened hplain takeMoment_plain hf h

/-- The same for a command whose change does not ask how its transaction began. -/
theorem ended_plain {f : State → State} (hf : ∀ s, Plain s (f s)) (s : State) :
    Plain s (f (endTransaction s)) :=
  (endTransaction_plain s).trans (hf _)

/-! ### The Profile Cache (chapter 02) -/

theorem firstWhere_isNone {α : Type} {n : Nat} {t : Vector α n} {p : α → Bool} :
    (firstWhere t p).isNone = true ↔ ∀ i, p (tget t i) = false := by
  rw [Option.isNone_iff_eq_none, firstWhere_none]

theorem filledWith_isFilled {id : ProfileId} {c : CacheSlot} (h : c.filledWith id = true) :
    c.isFilled = true := by
  cases c <;> simp_all [CacheSlot.filledWith, CacheSlot.isFilled]

/-- The slot found for a resident profile is FILLED with it. -/
theorem residentSlot_filledWith {id : ProfileId} {c : CacheNo} (h : residentSlot id s = some c) :
    (tget s.cache.slots c).filledWith id = true :=
  firstWhere_holds h

theorem lendAtCompletion_plain (s : State) (h : s.cache.flight = none) :
    Plain s (lendAtCompletion s) := by
  unfold lendAtCompletion
  split
  · exact (Plain.of (.cache (.port .lent fun _ => h))).trans (latch_plain _ _)
  · exact .refl s

theorem fixRecord_plain (id : ProfileId) (n : Nat) (s : State) (r : RecordNo) :
    Plain s (fixRecord id n s r) := by
  unfold fixRecord
  split
  · next h => exact settle_restated_plain h.1 (by simpa [isLive_iff] using h.1) rfl rfl rfl
  · exact .refl s

theorem fixRecords_plain (id : ProfileId) (n : Nat) (s : State) : Plain s (fixRecords id n s) :=
  Moves.foldl _ (fixRecord_plain id n) _ s

/-- The fixing of provisional records reaches the table and the cache's reference counts alone. -/
theorem fixRecord_frame (id : ProfileId) (n : Nat) (s : State) (r : RecordNo) :
    outsideRecords (fixRecord id n s r) = outsideRecords s := by
  unfold fixRecord
  split
  · rw [settleRecord_frame]
    rfl
  · rfl

theorem fixRecords_frame (id : ProfileId) (n : Nat) (s : State) :
    outsideRecords (fixRecords id n s) = outsideRecords s :=
  foldl_keeps outsideRecords _ (fixRecord_frame id n) _ s

/-- States that agree outside the records agree on the fetch in flight. -/
theorem flight_of_outsideRecords (h : outsideRecords s = outsideRecords t) :
    s.cache.flight = t.cache.flight := by
  simp only [outsideRecords, Prod.mk.injEq] at h
  exact h.2.2.2.2.2.2.1

theorem completeGood_plain {f : Flight} {page : List Int} (hf : s.cache.flight = some f)
    (hlow : 1 ≤ page.length) (hhigh : page.length ≤ 256) : Plain s (completeGood f page s) := by
  have hnone : (fixRecords f.id page.length (fillSlot f page s)).cache.flight = none := by
    rw [flight_of_outsideRecords (fixRecords_frame _ _ _)]
    rfl
  exact ((Plain.of (.cache (.fill f page hf hlow hhigh))).trans (fixRecords_plain _ _ _)).trans
    (lendAtCompletion_plain _ hnone)

theorem fetchCompleteGood_plain (page : List Half) (s : State) :
    Plain s (fetchCompleteGood page s) := by
  unfold fetchCompleteGood
  split
  · next f hf =>
    split
    · next hp =>
      simp only [pageLengthOk, Bool.and_eq_true, decide_eq_true_eq] at hp
      exact completeGood_plain hf (by simpa using hp.1) (by simpa using hp.2)
    · exact .refl s
  · exact .refl s

theorem fetchCompleteBad_plain (s : State) : Plain s (fetchCompleteBad s) := by
  unfold fetchCompleteBad
  split
  · next f hf =>
    exact ((Plain.of (.cache (.fail f hf))).trans (latch_plain _ _)).trans
      (lendAtCompletion_plain _ rfl)
  · exact .refl s

theorem withProfile_plain {f : ProfileId → State → State} (hf : ∀ id s, Plain s (f id s)) (h : Half)
    (s : State) : Plain s (withProfile h f s) := by
  unfold withProfile
  split
  · exact hf _ s
  · exact respond_plain _ s

theorem preloadId_plain (id : ProfileId) (s : State) : Plain s (preloadId id s) := by
  unfold preloadId
  split
  · exact respond_plain _ s
  · split
    · exact respond_plain _ s
    · split
      · exact respond_plain _ s
      · next hu ha hq =>
        exact (Plain.of (.cache (.enqueue id (by simpa using hu) (by simpa using ha)
          (by simpa using hq)))).trans (respond_plain _ _)

theorem retryId_plain (id : ProfileId) (s : State) : Plain s (retryId id s) := by
  unfold retryId
  split
  · exact respond_plain _ s
  · split
    · exact (Plain.of (.cache (.makeUsable id))).trans (respond_plain _ _)
    · split
      · exact respond_plain _ s
      · next hu _ hq =>
        exact (Plain.of (.cache (.retry id (by simpa using hu) (by simpa using hq)))).trans
          (respond_plain _ _)

theorem dropId_plain (id : ProfileId) (s : State) : Plain s (dropId id s) := by
  unfold dropId
  split
  · exact respond_plain _ s
  · split
    · exact respond_plain _ s
    · split
      · next h => exact (Plain.of (.cache (.empty _ h))).trans (respond_plain _ _)
      · exact respond_plain _ s

theorem lendPort_plain (s : State) : Plain s (lendPort s) := by
  unfold lendPort
  split
  · split
    · next hf =>
      exact ((Plain.of (.cache (.port .lent fun _ => hf))).trans (latch_plain _ _)).trans
        (respond_plain _ _)
    · exact (Plain.of (.cache (.port .lendPending (fun h => nomatch h)))).trans (respond_plain _ _)
  · exact respond_plain _ s

theorem reclaimPort_plain (s : State) : Plain s (reclaimPort s) := by
  unfold reclaimPort
  split
  · exact (Plain.of (.cache .reclaim)).trans (respond_plain _ _)
  · exact (Plain.of (.cache (.port .owned (fun h => nomatch h)))).trans (respond_plain _ _)
  · exact respond_plain _ s

/-! ### The answers to messages (R7 to R17) -/

/-- The record found for a slot's tag is live and of that slot and tag (R6). -/
theorem findTag_some {slot : Slot} {tag : Tag} {r : RecordNo} (h : findTag slot tag s = some r) :
    isLive (getRecord r s) = true ∧ (getRecord r s).slot = slot ∧ (getRecord r s).tag = tag := by
  have := firstWhere_holds h
  simp only [Bool.and_eq_true, decide_eq_true_eq] at this
  exact ⟨this.1.1, this.1.2, this.2⟩

/-- The checks of R9 that a NOTICE has passed. -/
theorem noticeRefusal_none {slot : Slot} {m : NoticeFields} (h : noticeRefusal slot m s = none) :
    findTag slot m.tag s = none ∧ getLive slot s < 3 ∧ unusable m.profile s = false ∧
      (absentProfile m.profile s = true → queueFull s = false) := by
  unfold noticeRefusal at h
  split at h
  · cases h
  · split at h
    · cases h
    · split at h
      · cases h
      · split at h
        · cases h
        · split at h
          · cases h
          · split at h
            · cases h
            · split at h
              · cases h
              · next htag hlive hbad _ _ _ hfull =>
                refine ⟨by simpa using htag, by omega, by simpa using hbad, fun ha => ?_⟩
                simpa [ha] using hfull

/-- Counts of a profile that no slot is FILLED with do not change. -/
theorem modCount_of_not_resident {id : ProfileId} (f : Nat → Nat) (h : residentSlot id s = none) :
    modCount id f s = s := by
  have hslots : s.cache.slots.map (CacheSlot.mapCount id f) = s.cache.slots := by
    apply table_ext
    intro c
    have hc : (tget s.cache.slots c).filledWith id = false := (firstWhere_none _ _).mp h c
    rw [tget_map]
    cases hcs : tget s.cache.slots c <;> simp_all [CacheSlot.mapCount, CacheSlot.filledWith]
  unfold modCount
  rw [hslots]

/-- What a taken NOTICE does to the cache before its record's reference is counted. -/
def noticeCache (id : ProfileId) (s : State) : State :=
  match residentSlot id s with
  | some c => touch c s
  | none => if absentProfile id s then enqueue id s else s

theorem noticeProfile_eq (id : ProfileId) (s : State) :
    noticeProfile id s = modCount id (· + 1) (noticeCache id s) := by
  unfold noticeProfile noticeCache
  rcases hr : residentSlot id s with _ | c
  · dsimp only
    split
    · exact (modCount_of_not_resident (s := enqueue id s) _ hr).symm
    · exact (modCount_of_not_resident _ hr).symm
  · rfl

theorem noticeCache_plain {id : ProfileId} (hu : unusable id s = false)
    (hq : absentProfile id s = true → queueFull s = false) : Plain s (noticeCache id s) := by
  unfold noticeCache
  split
  · next c hc => exact .of (.cache (.touch c (filledWith_isFilled (residentSlot_filledWith hc))))
  · split
    · next ha => exact .of (.cache (.enqueue id hu ha (hq ha)))
    · exact .refl s

/-- What a taken NOTICE does to the cache reaches neither records nor links. -/
theorem noticeCache_frame (id : ProfileId) (s : State) :
    noticeCache id s = { s with cache := (noticeCache id s).cache } := by
  unfold noticeCache
  split
  · rfl
  · split <;> rfl

theorem noticeInto_plain {r : RecordNo} {slot : Slot} {m : NoticeFields}
    (hr : isLive (getRecord r s) = false) (hpresent : (getLink slot s).effective = .present)
    (h : noticeRefusal slot m s = none) : Plain s (noticeInto r slot m s) := by
  obtain ⟨htag, hlive, hu, hq⟩ := noticeRefusal_none h
  have hframe := noticeCache_frame m.profile s
  unfold noticeInto
  rw [noticeProfile_eq]
  have hfill : TableChange (noticeCache m.profile s) _ :=
    .fill r (noticeRecord slot m s) (by rw [hframe]; exact hr) rfl (by rw [hframe]; exact htag)
      (by rw [hframe]; exact hlive) (by rw [hframe]; exact hpresent)
  refine ((noticeCache_plain hu hq).trans (Plain.of (.table hfill))).trans (settleRecord_plain ?_)
  rw [getRecord_modLive, getRecord_setRecord_self]
  rfl

theorem latchLate_plain (start : Time) (s : State) : Plain s (latchLate start s) := by
  unfold latchLate
  split
  · exact latch_plain _ s
  · exact .refl s

theorem noticePresent_plain (slot : Slot) (m : NoticeFields)
    (hpresent : (getLink slot s).effective = .present) : Plain s (noticePresent slot m s).2 := by
  unfold noticePresent
  split
  · exact latch_plain _ s
  · next h =>
    split
    · exact latch_plain _ s
    · next r hr =>
      refine (noticeInto_plain ?_ hpresent h).trans (latchLate_plain _ _)
      simpa [getRecord] using firstWhere_holds hr

theorem amendPresent_plain (slot : Slot) (m : AmendFields) (s : State) :
    Plain s (amendPresent slot m s).2 := by
  unfold amendPresent
  split
  · exact .refl s
  · next r hr =>
    split
    · split
      · exact .refl s
      · have hlive := (findTag_some hr).1
        have hv : isLive (amendRecord m s (getRecord r s)) = true := by
          simpa [isLive_iff, amendRecord] using hlive
        exact (settle_restated_plain hlive hv rfl rfl rfl).trans (latchLate_plain _ _)
    · exact .refl s

theorem withdrawPresent_plain (slot : Slot) (tag : Tag) (s : State) :
    Plain s (withdrawPresent slot tag s).2 := by
  unfold withdrawPresent
  split
  · exact .refl s
  · next r hr =>
    have hlive := (findTag_some hr).1
    split
    · exact retire_plain hlive
    · exact settle_restated_plain hlive hlive rfl rfl rfl
    · exact .refl s

theorem closePresent_plain (slot : Slot) (tag : Tag) (stamp : Half) (s : State) :
    Plain s (closePresent slot tag stamp s).2 := by
  unfold closePresent
  split
  · exact .refl s
  · next r hr =>
    have hlive := (findTag_some hr).1
    split
    · exact .refl s
    · exact settle_restated_plain hlive hlive rfl rfl rfl
    · exact .refl s

theorem answerIfPresent_plain (slot : Slot) {f : State → Reply × State}
    (hf : (getLink slot s).effective = .present → Plain s (f s).2) :
    Plain s (answerIfPresent slot f s).2 := by
  unfold answerIfPresent
  split
  · exact .refl s
  · next h => exact hf h

/-! ### The Coupling Store (chapter 03) -/

/-- An entry without fault has a target above the one before it and not its source's own (R56). -/
theorem entryFault_none {source : Slot} {before : Option Nat} {target : Nat}
    (h : entryFault source before target = none) :
    target < 112 ∧ target ≠ source.val ∧ ∀ b ∈ before, b < target := by
  unfold entryFault at h
  split at h
  · cases h
  · split at h
    · cases h
    · split at h
      · cases h
      · next hr hs hd =>
        refine ⟨by omega, hs, fun b hb => ?_⟩
        obtain rfl : before = some b := hb
        by_contra hlt
        have hne : b ≠ target := fun e => hd (by rw [e])
        have : target < b := by omega
        simp [this] at h

/-- A list that passes validation holds as many entries as were written, in ascending order of
target above the one before, none of them its source's own (R53, R56). -/
theorem validateFrom_ok {source : Slot} {pos : Nat} {before : Option Nat} {l : List RawEntry}
    {out : List Entry} (h : validateFrom source pos before l = .ok out) :
    out.length = l.length ∧ (out.map (·.target)).Pairwise (· < ·) ∧
      ∀ e ∈ out, e.target ≠ slotTarget source ∧ ∀ b ∈ before, b < e.target.val := by
  induction l generalizing pos before out with
  | nil => cases h; simp
  | cons e l ih =>
    unfold validateFrom at h
    split at h
    · cases h
    · cases h
    · next t hfault ht =>
      split at h
      · next out' hout =>
        cases h
        obtain ⟨hlen, hsorted, hall⟩ := ih hout
        obtain ⟨hr, hs, hb⟩ := entryFault_none hfault
        have htv : t.val = e.target.toNat :=
          (below_eq_some.mp ht).symm
        refine ⟨by simp [hlen], ?_, ?_⟩
        · simp only [List.map_cons, List.pairwise_cons, List.mem_map]
          refine ⟨?_, hsorted⟩
          rintro u ⟨x, hx, rfl⟩
          have := (hall x hx).2 _ rfl
          show t.val < x.target.val
          omega
        · intro x hx
          rcases List.mem_cons.mp hx with rfl | hx
          · refine ⟨fun he => hs ?_, fun b hbb => ?_⟩
            · have : t.val = source.val := congrArg Fin.val he
              omega
            · show b < t.val
              rw [htv]
              exact hb b hbb
          · refine ⟨(hall x hx).1, fun b hbb => ?_⟩
            have h1 := hb b hbb
            have h2 := (hall x hx).2 _ rfl
            omega
      · cases h

theorem listLaw_of_validateList {source : Slot} {l : List RawEntry} {out : List Entry}
    (h : validateList source l = .ok out) : ListLaw source out := by
  unfold validateList at h
  split at h
  · cases h
  · obtain ⟨hlen, hsorted, hall⟩ := validateFrom_ok h
    exact ⟨by omega, hsorted, fun e he => (hall e he).1⟩

/-- A command that is judged good begins on the state in which its transaction has ended. -/
theorem begin_plain {e : Executing} (h : frameRefused s = false) (he : judgedGood e s) :
    Plain s (execute e (endTransaction s)) :=
  .of (.store (.begin e h he))

theorem ended_respond_plain (r : Response) (s : State) :
    Plain s (respond r (endTransaction s)) :=
  ended_plain (respond_plain r) s

theorem listWrite_plain (a : ListWriteArgs) (h : frameRefused s = false) :
    Plain s (listWrite a (endTransaction s)) := by
  unfold listWrite
  split
  · exact ended_respond_plain _ s
  · split
    · exact ended_respond_plain _ s
    · next hpending =>
      split
      · exact ended_respond_plain _ s
      · next l hl =>
        split
        · exact ended_respond_plain _ s
        · next hpool =>
          exact begin_plain h ⟨by simpa using hpending, listLaw_of_validateList hl,
            by simpa using hpool⟩

theorem listRead_plain (a : ListReadArgs) (h : frameRefused s = false) :
    Plain s (listRead a (endTransaction s)) := by
  unfold listRead
  split
  · exact begin_plain h trivial
  · exact ended_respond_plain _ s

theorem sourceList_plain (a : SourceListArgs) (h : frameRefused s = false) :
    Plain s (sourceList a (endTransaction s)) := by
  unfold sourceList
  split
  · exact begin_plain h trivial
  · exact ended_respond_plain _ s

theorem capture_plain (h : frameRefused s = false) : Plain s (capture (endTransaction s)) := by
  unfold capture
  split
  · exact ended_respond_plain _ s
  · next hpending => exact begin_plain h (by simpa [judgedGood] using hpending)

theorem swapRequest_plain (h : frameRefused s = false) :
    Plain s (swapRequest (endTransaction s)) := by
  unfold swapRequest
  split
  · exact ended_respond_plain _ s
  · exact (Plain.of (.store (.pending true h))).trans (respond_plain _ _)

theorem swapCancel_plain (h : frameRefused s = false) :
    Plain s (swapCancel (endTransaction s)) := by
  unfold swapCancel
  split
  · exact (Plain.of (.store (.pending false h))).trans (respond_plain _ _)
  · exact ended_respond_plain _ s

theorem listWriteGrant_plain (s : State) : Plain s (listWriteGrant s) := by
  unfold listWriteGrant
  split
  · next source l n h =>
    split
    · exact .of (.store (.written source l n _ h))
    · exact .refl s
  · exact .refl s

theorem listReadGrant_plain (s : State) : Plain s (listReadGrant s) := by
  unfold listReadGrant
  split
  · split
    · exact .of (.store (.answered _))
    · exact .refl s
  · exact .refl s

theorem sourceListGrant_plain (s : State) : Plain s (sourceListGrant s) := by
  unfold sourceListGrant
  split
  · split
    · exact .of (.store (.answered _))
    · exact .refl s
  · exact .refl s

theorem captureEmptyGrant_plain (s : State) : Plain s (captureEmptyGrant s) := by
  unfold captureEmptyGrant
  split
  · next h =>
    split
    · exact .of (.store (.emptied h))
    · exact .refl s
  · exact .refl s

theorem captureCopyGrant_plain (s : State) : Plain s (captureCopyGrant s) := by
  unfold captureCopyGrant
  split
  · next source h =>
    split
    · split
      · next next hn =>
        exact .of (.store (.copied source next h (below_eq_some.mp hn).symm))
      · exact .of (.store (.captured source _ h))
    · exact .refl s
  · exact .refl s

end Sys2Proof.Machine
end

section
/-! PROOF. What every operation of the engines, the stations, the boundary and the row links is made
of, and with it every command: paths of small changes, of the kinds that `kindsOf` lists. -/

namespace Sys2Proof.Machine

variable {s t : State}

/-! ### Presence and lock (R128 to R130, R157 to R160) -/

/-- A slot's purge does not ask for its link. -/
theorem purgeSlot_modLink (slot x : Slot) (f : LinkSlot → LinkSlot) (s : State) :
    purgeSlot slot (modLink x f s) = modLink x f (purgeSlot slot s) := by
  unfold purgeSlot
  rw [show liveOfSlot slot (modLink x f s) = liveOfSlot slot s from rfl]
  generalize liveOfSlot slot s = l
  induction l generalizing s with
  | nil => rfl
  | cons r l ih => exact ih (retire r s)

/-- A purge reaches the table and the cache's reference counts alone. -/
theorem purgeSlot_frame (slot : Slot) (s : State) :
    outsideRecords (purgeSlot slot s) = outsideRecords s :=
  foldl_keeps outsideRecords (fun s r => retire r s) (fun _ _ => rfl) _ s

theorem links_of_outsideRecords (h : outsideRecords s = outsideRecords t) : s.links = t.links := by
  simp only [outsideRecords, Prod.mk.injEq] at h
  exact h.2.2.2.2.2.2.2.2.2.2.2.2.2.1

theorem getLink_purgeSlot (slot x : Slot) (s : State) :
    getLink x (purgeSlot slot s) = getLink x s := by
  unfold getLink
  rw [links_of_outsideRecords (purgeSlot_frame slot s)]

/-- A change of presence that leaves the window: where the slot enters ABSENT its records are
retired before it. -/
theorem changePresence_plain (slot : Slot) {f : LinkSlot → LinkSlot}
    (hw : ∀ l, (f l).window = l.window) (s : State) : Plain s (changePresence slot f s) := by
  rcases changePresence_cases slot f s with ⟨he, hs⟩ | ⟨-, -, hs⟩ | ⟨-, he, hs⟩
  · rw [hs]
    exact Plain.of (.link (.mod slot f (hw _) (.inl he)))
  · rw [hs, enterAbsent, purgeSlot_modLink]
    have hmod : Plain (purgeSlot slot s) (modLink slot f (purgeSlot slot s)) :=
      Plain.of (.link (.mod slot f (hw _) (.inr (.inr fun r hr => slot_ne_of_live_purgeSlot hr))))
    exact ((((purgeSlot_plain slot s).trans hmod).trans
      (Plain.of (.prediction (.emptied (slotTarget slot))))).trans
        (Plain.of (.prediction (.abandoned slot)))).trans (latch_plain _ _)
  · rw [hs]
    exact ((Plain.of (.link (.mod slot f (hw _) (.inr (.inl he))))).trans
      (Plain.of (.adapt (.mod _ _ (by exact fun _ => ⟨rfl, rfl⟩))))).trans (latch_plain _ _)

theorem startSettle_plain (t : Target) (s : State) : Plain s (startSettle t s) :=
  Plain.of (.adapt (.mod _ _ (by exact fun _ => ⟨rfl, rfl⟩)))

theorem Calm.refl (x : StationState) : Calm x x := ⟨.inl rfl, .inl rfl, .inl rfl, .inl rfl⟩

/-- A station's change that leaves filter and accounts is calm. -/
theorem Calm.of_same {x y : StationState} (h1 : y.y1 = x.y1) (h2 : y.y2 = x.y2)
    (ho : y.older = x.older) (hn : y.newer = x.newer) : Calm x y :=
  ⟨.inl h1, .inl h2, .inl ho, .inl hn⟩

theorem Calm.unlock {x y : StationState} (h : Calm x y) : Calm x y.unlock where
  y1 := .inr rfl
  y2 := .inr rfl
  older := .inr (by rcases h.older with h | h <;> simp [StationState.unlock, h, Account.clearResiduals])
  newer := .inr (by rcases h.newer with h | h <;> simp [StationState.unlock, h, Account.clearResiduals])

theorem modStation_plain {k : Station} {f : StationState → StationState}
    (h : Calm (getStation k s) (f (getStation k s))) : Plain s (modStation k f s) :=
  Plain.of (.station (.calm k f h))

theorem changeLock_plain (k : Station) {f : StationState → StationState} (hf : ∀ x, Calm x (f x))
    (s : State) : Plain s (changeLock k f s) := by
  rcases changeLock_cases k f s with ⟨-, hs⟩ | ⟨-, -, hs⟩ | ⟨-, -, hs⟩
  · rw [hs]
    exact modStation_plain (hf _)
  · rw [hs]
    exact (modStation_plain (f := fun st => (f st).unlock) (hf _).unlock).trans (latch_plain _ _)
  · rw [hs]
    exact ((modStation_plain (hf _)).trans (startSettle_plain _ _)).trans (latch_plain _ _)

/-! ### Prediction (chapter 04) -/

theorem setGaps_plain (a b : Bool) (s : State) : Plain s (setGaps a b s) :=
  Plain.of (.prediction (.gaps a b))

theorem predictionRead_plain (s : State) : Plain s (predictionRead s) := by
  unfold predictionRead
  split
  · exact Plain.of (.prediction .read)
  · exact .refl s

theorem readThrough_plain (t : Target) (s : State) : Plain s (readThrough t s) := by
  unfold readThrough
  split
  · exact Plain.of (.prediction (.reads t))
  · exact .refl s

/-- The evaluation found in flight for a target is of that target. -/
theorem findEvaluation_target {u : Target} {e : Evaluation} (h : findEvaluation u s = some e) :
    e.target = u := by
  have := List.find?_some h
  simpa using this

theorem evaluationEnd_plain (u : Target) (s : State) : Plain s (evaluationEnd u s) := by
  unfold evaluationEnd
  split
  · next e he =>
    unfold endOf
    split
    · next bank hw hb =>
      exact Plain.of (.prediction (.ended e bank (by rwa [findEvaluation_target he]) hw hb))
    · exact .refl s
  · exact .refl s

theorem finishEvaluation_plain (u : Target) (s : State) : Plain s (finishEvaluation u s) := by
  unfold finishEvaluation
  split
  · exact (readThrough_plain u s).trans (evaluationEnd_plain u _)
  · exact .refl s

theorem finishStationEvaluations_plain (s : State) : Plain s (finishStationEvaluations s) :=
  Moves.foldl _ (fun _ _ => finishEvaluation_plain _ _) _ s

theorem beginEvaluation_plain (u : Target) (f : Frame) (s : State) :
    Plain s (beginEvaluation u f s) :=
  Plain.of (.prediction (.begin u f))

/-! ### Adaptation (chapter 05) -/

theorem modAdapt_plain (u : Target) {f : AdaptRecord → AdaptRecord} (s : State)
    (h : KeepsDivergence f := by exact fun _ => ⟨rfl, rfl⟩) : Plain s (modAdapt u f s) :=
  Plain.of (.adapt (.mod u f h))

theorem queueStep_plain {st : Step} (hf : (getAdapt st.target s).frozen = false) :
    Plain s (queueStep st s) := by
  unfold queueStep
  split
  · exact .refl s
  · next hu => exact Plain.of (.adapt (.queued st hu hf))

/-- An arrival that is not ignored finds its target not frozen (R99). -/
theorem frozen_of_not_ignored {u : Target} {r : EvalRecord} {parked : Bool}
    (h : arrivalIgnored u r parked s = false) : (getAdapt u s).frozen = false := by
  simp only [arrivalIgnored, Bool.or_eq_false_iff] at h
  exact h.1.1.1.1.1.1.1.1.1

theorem arrival_plain (place : Nat) (u : Target) (residual : Int) (r : EvalRecord) (parked : Bool)
    (s : State) : Plain s (arrival place u residual r parked s) := by
  unfold arrival
  split
  · exact .refl s
  · next h =>
    have hf := frozen_of_not_ignored (by simpa using h)
    unfold countArrival
    split
    · refine (modAdapt_plain u s).trans (queueStep_plain ?_)
      show (getAdapt u (modAdapt u _ s)).frozen = false
      simp [getAdapt_modAdapt, hf]
    · exact modAdapt_plain u s

theorem statusResidual_plain (slot : Slot) (residual : Int) (tag : Nat) (parked : Bool)
    (s : State) : Plain s (statusResidual slot residual tag parked s) := by
  unfold statusResidual
  dsimp only
  split
  · exact (modAdapt_plain _ s).trans (arrival_plain ..)
  · exact modAdapt_plain _ s

theorem stationMean_plain (k : Station) (f : Frame) (mean : Int) (s : State) :
    Plain s (stationMean k f mean s) := by
  have h : Plain s (setLastResidual (stationTarget k) mean s) :=
    modAdapt_plain _ s
  unfold stationMean
  dsimp only
  split
  · split
    · exact h.trans (arrival_plain ..)
    · exact h
  · exact h

/-- A divergence event: its flag, and a change of one record; the third cuts steps off too. -/
theorem divergenceEvent_plain (u : Target) (s : State) : Plain s (divergenceEvent u s) := by
  unfold divergenceEvent
  dsimp only
  refine (latch_plain .divergence s).trans ?_
  split
  · exact modAdapt_plain u _
  · split
    · next h => exact (latch_plain .frozen _).trans (Plain.of (.adapt (.frozen u _ h)))
    · next h => exact Plain.of (.adapt (.diverged u _ (by omega)))

theorem reportUpdate_plain {st : Step} {rest : List Step} {u : GainUpdate} {more : List GainUpdate}
    (mark : Bool) (h : s.adaptation.steps = st :: rest) (hu : st.updates = u :: more) :
    Plain s (reportUpdate st rest more mark s) := by
  unfold reportUpdate
  split
  · split
    · exact (Plain.of (.adapt (.ended st rest h))).trans (divergenceEvent_plain _ _)
    · exact Plain.of (.adapt (.ended st rest h))
  · next hm => exact Plain.of (.adapt (.stepped st rest u _ mark h hu fun e => hm e))

theorem gainUpdate_plain (s : State) : Plain s (gainUpdate s) := by
  unfold gainUpdate
  split
  · exact .refl s
  · split
    · exact .refl s
    · next st rest h =>
      split
      · exact Plain.of (.adapt (.ended st rest h))
      · next u more hu =>
        have hupdate : Plain s (setStore (applyUpdate s.store st.bank st.target u) s) :=
          Plain.of (.store (.update st.bank st.target u))
        exact (hupdate.trans (reportUpdate_plain _ h hu)).trans (setGaps_plain _ _ _)

theorem settleEnd_plain (u : Target) (s : State) : Plain s (settleEnd u s) := by
  unfold settleEnd
  split
  · exact modAdapt_plain u s
  · exact .refl s

theorem divergenceHoldEnd_plain (u : Target) (s : State) : Plain s (divergenceHoldEnd u s) := by
  unfold divergenceHoldEnd
  split
  · split <;> exact modAdapt_plain u s
  · exact .refl s

/-! ### Stations (chapter 06) -/

theorem channelWord_plain (tag : BitVec 6) (v : Half) (s : State) :
    Plain s (channelWord tag v s) := by
  unfold channelWord
  split
  · exact .refl s
  · split
    · exact modStation_plain (.of_same rfl rfl rfl rfl)
    · refine modStation_plain ?_
      unfold StationState.wordB
      split
      · exact .refl _
      · exact .of_same rfl rfl rfl rfl

theorem countLock_calm (g : GlobalSettings) (valid : Bool) (x : StationState) :
    Calm x (x.countLock g valid) := by
  unfold StationState.countLock
  split
  · split <;> exact .of_same rfl rfl rfl rfl
  · exact .of_same rfl rfl rfl rfl
  · exact .of_same rfl rfl rfl rfl
  · split <;> exact .of_same rfl rfl rfl rfl

theorem lockSample_plain (k : Station) (valid : Bool) (s : State) :
    Plain s (lockSample k valid s) :=
  changeLock_plain k (countLock_calm _ _) s

theorem lockMisses_plain (k : Station) (n : Nat) (s : State) : Plain s (lockMisses k n s) := by
  induction n generalizing s with
  | zero => exact .refl s
  | succ n ih => exact (lockSample_plain k false s).trans (ih _)

theorem closeMean_plain (k : Station) (s : State) : Plain s (closeMean k s) := by
  unfold closeMean
  dsimp only
  split
  · exact stationMean_plain _ _ _ s
  · exact .refl s

theorem closeMissing_plain (k : Station) (a : Account) (s : State) :
    Plain s (closeMissing k a s) := by
  unfold closeMissing
  split
  · exact lockMisses_plain _ _ s
  · exact .refl s

theorem shockHoldEnd_plain (k : Station) (s : State) : Plain s (shockHoldEnd k s) := by
  unfold shockHoldEnd
  split
  · split
    · exact modStation_plain ⟨.inr rfl, .inr rfl, .inl rfl, .inl rfl⟩
    · exact modStation_plain (.of_same rfl rfl rfl rfl)
  · exact .refl s

theorem forceLock_plain (a : ForceArgs) (s : State) : Plain s (forceLock a s) := by
  unfold forceLock
  split
  · exact (changeLock_plain _ (by exact fun _ => .of_same rfl rfl rfl rfl) s).trans (respond_plain _ _)
  · exact respond_plain _ s

theorem trigger_plain (slot : Slot) (s : State) : Plain s (trigger slot s) :=
  (Plain.of (.suppression (.held slot))).trans (latch_plain _ _)

theorem shockSample_plain (k : Station) (s : State) : Plain s (shockSample k s) :=
  (modStation_plain (.of_same rfl rfl rfl rfl)).trans
    (Moves.foldl _ (fun _ _ => trigger_plain _ _) _ _)

theorem takeValues_plain (k : Station) (p : Int × Int) (s : State) : Plain s (takeValues k p s) := by
  have h : Plain s (modStation k
      (fun st => { st with lastM := scaledM (stationSettings k s) p }) s) :=
    modStation_plain (by exact .of_same rfl rfl rfl rfl)
  unfold takeValues
  dsimp only
  split
  · exact h.trans (shockSample_plain k _)
  · exact h

theorem natAbs_residual_le (m p : Int) : (residual m p).natAbs ≤ 32767 := by
  have := clip_bounds valueClip (m - p) (by decide)
  simp only [valueClip] at this
  unfold residual valueClip
  omega

/-- A residual of magnitude within the clip joins the account, and steps the filter at most. -/
theorem takeResidual_moves (k : Station) (f : Frame) {r : Int} (hr : r.natAbs ≤ 32767) (s : State) :
    Moves [.plain, .sweep] s (takeResidual k f r s) := by
  have h : Moves [.plain, .sweep] s (modStation k (StationState.modAccount f (Account.add r)) s) :=
    Moves.single (by simp) (.sweep (.residual k f r))
  unfold takeResidual
  dsimp only
  split
  · exact h.trans ((Plain.of (.station (.filter k r hr))).widen (by simp))
  · exact h

theorem takeMeasured_moves (k : Station) (u : Time) (p : Int × Int) (s : State) :
    Moves [.plain, .sweep] s (takeMeasured k u p s) := by
  unfold takeMeasured
  split
  · exact takeResidual_moves k _ (natAbs_residual_le _ _) s
  · exact .refl s

theorem takeSample_moves (k : Station) (u : Time) (s : State) :
    Moves [.plain, .sweep] s (takeSample k u s) := by
  have hv : ∀ p, Moves [.plain, .sweep] s (takeValues k p s) := fun p =>
    (takeValues_plain k p s).widen (by simp)
  have hl : ∀ valid s, Moves [.plain, .sweep] s (lockSample k valid s) := fun valid s =>
    (lockSample_plain k valid s).widen (by simp)
  unfold takeSample
  split
  · exact hl false s
  · split
    · exact ((hv _).trans (takeMeasured_moves ..)).trans (hl true _)
    · exact (hv _).trans (hl false _)

theorem offerSweep_moves (u : Time) (s : State) (k : Station) :
    Moves [.plain, .sweep] s (offerSweep u s k) := by
  unfold offerSweep
  split
  · exact .refl s
  · split
    · exact .refl s
    · exact (Moves.single (by simp) (.sweep (.period k _ _))).trans (takeSample_moves ..)

theorem sweep_moves (u : Time) (s : State) : Moves [.plain, .sweep] s (sweep u s) := by
  unfold sweep
  split
  · exact .refl s
  · split
    · exact (latch_plain _ s).widen (by simp)
    · exact Moves.foldl _ (offerSweep_moves u) _ s

theorem clearPairing_plain (s : State) : Plain s (clearPairing s) :=
  Plain.of (.station (.calmAll StationState.clearPairing fun _ => .of_same rfl rfl rfl rfl))

theorem closeSweep_moves (stamp : Half) (s : State) :
    Moves [.plain, .sweep] s (closeSweep stamp s) :=
  (sweep_moves _ s).trans ((clearPairing_plain _).widen (by simp))

/-! ### Suppression (chapter 07) -/

/-- The fall or expiry of a hold, the clear request and the shortening keep a record's hold above 0
exactly in HELD. -/
theorem HoldOk.expire (mode : SuppressionMode) (r : SuppressionRecord) : HoldOk (r.expire mode) := by
  cases mode
  · simp [HoldOk, SuppressionRecord.expire]
  · cases hr : r.clearRequested <;> simp [HoldOk, SuppressionRecord.expire, hr]

theorem HoldOk.requestClear {r : SuppressionRecord} (h : HoldOk r) : HoldOk r.requestClear := by
  unfold SuppressionRecord.requestClear
  cases hr : r.state <;> simp_all [HoldOk]

theorem HoldOk.shorten {r : SuppressionRecord} (h : HoldOk r) : HoldOk r.shorten := by
  unfold SuppressionRecord.shorten
  cases hr : r.state <;> simp_all [HoldOk, shortHold]

/-- A hold that falls, and not from 1, stays above 0 where it was. -/
theorem HoldOk.fall {r : SuppressionRecord} (h : HoldOk r) {n : Nat} (due : Bool)
    (hn : 0 < n ↔ 0 < r.hold) : HoldOk { r with hold := n, fallDue := due } :=
  ⟨h.1.trans hn.symm, h.2⟩

theorem holdExpiry_plain (slot : Slot) (s : State) : Plain s (holdExpiry slot s) := by
  unfold holdExpiry
  split
  · split
    · exact Plain.of (.suppression (.mod slot _ fun _ => HoldOk.expire _ _))
    · exact Plain.of (.suppression (.mod slot _ fun h => h.fall false (by omega)))
  · exact .refl s

theorem suppressClear_plain (b : Byte) (s : State) : Plain s (suppressClear b s) := by
  unfold suppressClear
  split
  · exact respond_plain _ s
  · exact (Plain.of (.suppression (.mod _ _ HoldOk.requestClear))).trans (respond_plain _ _)

theorem holdShorten_plain (b : Byte) (s : State) : Plain s (holdShorten b s) := by
  unfold holdShorten
  split
  · exact (Plain.of (.suppression (.map _ fun _ => HoldOk.shorten))).trans (respond_plain _ _)
  · split
    · exact respond_plain _ s
    · exact (Plain.of (.suppression (.mod _ _ HoldOk.shorten))).trans (respond_plain _ _)

/-! ### The frame boundary (R61, R72, R131, R151) -/

theorem boundaryFall_pos (due : Bool) (n : Nat) : 0 < boundaryFall due n ↔ 0 < n := by
  unfold boundaryFall
  split
  · next h =>
    simp only [Bool.and_eq_true, decide_eq_true_eq] at h
    omega
  · exact Iff.rfl

theorem lowerCounts_plain (s : State) : Plain s (lowerCounts s) :=
  ((Plain.of (.adapt (.map AdaptRecord.lower fun _ => ⟨rfl, rfl⟩))).trans
    (Plain.of (.station (.calmAll StationState.lower fun _ => .of_same rfl rfl rfl rfl)))).trans
    (Plain.of (.suppression (.map SuppressionRecord.lower
      fun _ h => h.fall _ (boundaryFall_pos _ _))))

theorem markDue_plain (s : State) : Plain s (markDue s) :=
  ((Plain.of (.adapt (.map (fun a => { a with settleDue := true, holdDue := true })
      fun _ => ⟨rfl, rfl⟩))).trans
    (Plain.of (.station (.calmAll (fun st => { st with shockDue := true })
      fun _ => .of_same rfl rfl rfl rfl)))).trans
    (Plain.of (.suppression (.map (fun r => { r with fallDue := true }) fun _ h => h.fall _ Iff.rfl)))

theorem takeSwap_plain (s : State) : Plain s (takeSwap s) := by
  unfold takeSwap
  split
  · next h =>
    exact ((Plain.of (.store (.swap h))).trans
      (Plain.of (.adapt (.map (AdaptRecord.swapped s.settings.global.settle)
        fun _ => ⟨rfl, rfl⟩)))).trans (latch_plain _ _)
  · exact .refl s

theorem closeFrame_moves (k : Station) (g : Frame) (s : State) :
    Moves [.plain, .frame] s (closeFrame k g s) :=
  (((closeMean_plain k s).trans (closeMissing_plain k _ _)).widen (by simp)).trans
    (Moves.single (by simp) (.frame (.shift k g)))

theorem stationCycle_moves (g : Frame) (s : State) (k : Station) :
    Moves [.plain, .frame] s (stationCycle g s k) :=
  (closeFrame_moves k g s).trans ((beginEvaluation_plain _ _ _).widen (by simp))

theorem boundaryUpdate_plain (g : Frame) (s : State) : Plain s (boundaryUpdate g s) := by
  unfold boundaryUpdate
  split
  · exact .refl s
  · exact gainUpdate_plain s

theorem boundaryAct_moves (g : Frame) (s : State) (a : BoundaryAct) :
    Moves [.plain, .frame] s (boundaryAct g s a) := by
  cases a with
  | cycle k => exact stationCycle_moves g s k
  | predictionRead => exact (predictionRead_plain s).widen (by simp)
  | gainUpdate => exact (boundaryUpdate_plain g s).widen (by simp)

/-- Once the boundary's phase has moved on, its actions are plain changes, the shift of accounts and
the opening of the windows. -/
theorem takeFrameBoundary_moves (acts : List BoundaryAct) (s : State) :
    Moves [.plain, .frame] { s with boundary := .taken } (takeFrameBoundary acts s) :=
  (((((lowerCounts_plain _).widen (by simp)).trans
    (Moves.foldl _ (boundaryAct_moves _) _ _)).trans ((takeSwap_plain _).widen (by simp))).trans
    (Moves.foldl _ (stationCycle_moves _) _ _)).trans (Moves.single (by simp) (.frame .opened))

/-- What a boundary is made of, its phase's move among it. -/
theorem boundary_moves {k : Kind} (hk : k = .boundary) (h : Change k s t) :
    Moves [.plain, .frame, .taken] s t := by
  cases h with
  | boundary acts s hd h =>
    exact (Moves.single (by simp) (.taken s)).trans ((takeFrameBoundary_moves acts s).mono (by simp))
  | _ => cases hk

/-- The schedule a boundary follows names no station's cycle twice. -/
theorem nodup_scheduleOf (acts : List BoundaryAct) : (cyclesOf (scheduleOf acts)).Nodup := by
  unfold scheduleOf
  split
  · next h => exact h
  · exact List.nodup_nil

theorem frameBoundary_moves (acts : List BoundaryAct) (s : State) :
    Moves [.boundary] s (frameBoundary acts s) := by
  unfold frameBoundary
  split
  · next h => exact Moves.single (by simp) (.boundary _ s (nodup_scheduleOf acts) h)
  · exact .refl s

/-- The blocks that plain changes and the boundary's shift and opening leave alone. -/
def clockPart (s : State) : Time × BoundaryPhase × Option ResetCause × Settings × List Instr :=
  (s.now, s.boundary, s.coldReset, s.settings, s.pending)

theorem clockPart_of_change {k : Kind} (hk : k = .plain ∨ k = .window ∨ k = .frame ∨ k = .sweep)
    (h : Change k s t) : clockPart t = clockPart s := by
  cases h with
  | table h => rw [h.frame]; rfl
  | cache h => rw [h.frame]; rfl
  | store h => rw [h.frame]; rfl
  | prediction h => rw [h.frame]; rfl
  | adapt h => rw [h.frame]; rfl
  | station h => rw [h.frame]; rfl
  | suppression h => rw [h.frame]; rfl
  | link h => rw [h.frame]; rfl
  | port h => rw [h.frame]; rfl
  | window h => rw [h.frame]; rfl
  | frame h => rw [h.frame]; rfl
  | sweep h => rw [h.frame]; rfl
  | _ => simp at hk

/-- Changes of these kinds leave chassis time, the boundary's phase, a cold reset, the settings and
the queue of commands. -/
theorem Moves.clockPart {K : List Kind} (h : Moves K s t)
    (hK : ∀ k ∈ K, k = .plain ∨ k = .window ∨ k = .frame ∨ k = .sweep) :
    clockPart t = clockPart s :=
  h.keeps (P := fun x => Machine.clockPart x = Machine.clockPart s)
    (fun k hk _ _ hc hs => (clockPart_of_change (hK k hk) hc).trans hs) rfl

theorem clockPart_now (h : clockPart t = clockPart s) : t.now = s.now := congrArg (·.1) h

theorem clockPart_boundary (h : clockPart t = clockPart s) : t.boundary = s.boundary :=
  congrArg (·.2.1) h

theorem clockPart_coldReset (h : clockPart t = clockPart s) : t.coldReset = s.coldReset :=
  congrArg (·.2.2.1) h

theorem clockPart_settings (h : clockPart t = clockPart s) : t.settings = s.settings :=
  congrArg (·.2.2.2.1) h

theorem clockPart_pending (h : clockPart t = clockPart s) : t.pending = s.pending :=
  congrArg (·.2.2.2.2) h

theorem boundary_takeFrameBoundary (acts : List BoundaryAct) (s : State) :
    (takeFrameBoundary acts s).boundary = .taken :=
  clockPart_boundary ((takeFrameBoundary_moves acts s).clockPart (by simp))

/-- The falls still due, and the end of the boundary. -/
theorem takeFalls_moves (h : s.boundary ≠ .reached) : Moves [.plain, .time] s (takeFalls s) := by
  have h1 : Plain s ((List.finRange 112).foldl (fun s u => divergenceHoldEnd u (settleEnd u s)) s) :=
    Moves.foldl _ (fun s u => (settleEnd_plain u s).trans (divergenceHoldEnd_plain u _)) _ s
  have h2 : ∀ s, Plain s ((List.finRange 16).foldl (fun s k => shockHoldEnd k s) s) :=
    Moves.foldl _ (fun s k => shockHoldEnd_plain k s) _
  have h3 : ∀ s, Plain s ((List.finRange 96).foldl (fun s slot => holdExpiry slot s) s) :=
    Moves.foldl _ (fun s slot => holdExpiry_plain slot s) _
  have h4 := (h1.trans (h2 _)).trans (h3 _)
  refine (h4.widen (by simp)).trans (Moves.single (by simp) (.time (.quiet ?_)))
  rwa [clockPart_boundary (h4.clockPart (by simp))]

theorem clockPart_takeFalls (s : State) :
    clockPart (takeFalls s) = clockPart { s with boundary := .quiet } := by
  have h := takeFalls_frame s
  have hsame : ∀ x y : State, outsideFalls x = outsideFalls y → clockPart x = clockPart y :=
    fun x y h => by
      simp only [outsideFalls, Prod.mk.injEq] at h
      obtain ⟨hnow, hb, hc, -, -, -, -, -, hg, -, hp, -⟩ := h
      rw [clockPart, clockPart, hnow, hb, hc, hg, hp]
  exact hsame _ _ h

/-- The taking of a boundary leaves the clock but for the boundary's phase. -/
theorem clockPart_takeBoundary (s : State) :
    clockPart (takeBoundary s) = clockPart { s with boundary := .quiet } := by
  unfold takeBoundary
  split
  · next h => rw [← h]
  · next h =>
    have hb : frameBoundary [] s = takeFrameBoundary (scheduleOf []) s := by
      unfold frameBoundary
      rw [h]
    have hframe := (takeFrameBoundary_moves (scheduleOf []) s).clockPart (by simp)
    rw [clockPart_takeFalls, hb]
    simp only [clockPart, Prod.mk.injEq] at hframe ⊢
    obtain ⟨hnow, -, hc, hg, hp⟩ := hframe
    exact ⟨hnow, trivial, hc, hg, hp⟩
  · rw [clockPart_takeFalls]

/-- What is due at a moment is taken with the clock as it stands, but for the boundary's phase. -/
theorem clockPart_takeDue (s : State) :
    clockPart (takeDue s) = clockPart { s with boundary := .quiet } := by
  have h := (takeMoment_plain s).clockPart (by simp)
  rw [takeDue, clockPart_takeBoundary]
  simp only [clockPart, Prod.mk.injEq] at h ⊢
  obtain ⟨hnow, -, hc, hg, hp⟩ := h
  exact ⟨hnow, trivial, hc, hg, hp⟩

theorem takeDue_now (s : State) : (takeDue s).now = s.now :=
  clockPart_now (s := { s with boundary := .quiet }) (clockPart_takeDue s)

theorem takeDue_coldReset (s : State) : (takeDue s).coldReset = s.coldReset :=
  clockPart_coldReset (s := { s with boundary := .quiet }) (clockPart_takeDue s)

/-- The kinds of changes by which what is due at a moment is taken. -/
def dueKinds : List Kind := [.plain, .time, .boundary]

theorem takeBoundary_moves (s : State) : Moves dueKinds s (takeBoundary s) := by
  unfold takeBoundary
  split
  · exact .refl s
  · next h =>
    refine ((frameBoundary_moves [] s).mono (by decide)).trans
      ((takeFalls_moves ?_).mono (by decide))
    simp [frameBoundary, h, boundary_takeFrameBoundary]
  · next h => exact (takeFalls_moves (by simp [h])).mono (by decide)

theorem takeDue_moves (s : State) : Moves dueKinds s (takeDue s) :=
  ((takeMoment_plain s).widen (by decide)).trans (takeBoundary_moves _)

theorem takeDueFor_moves (id : ProfileId) (s : State) : Moves dueKinds s (takeDueFor id s) :=
  ((takeMomentFor_plain id s).widen (by decide)).trans (takeBoundary_moves _)

/-- Once a boundary has been taken with its falls, none is in progress. -/
@[simp] theorem takeBoundary_boundary (s : State) : (takeBoundary s).boundary = .quiet := by
  unfold takeBoundary
  split
  · next h => exact h
  · rfl
  · rfl

theorem advance_moves (h : s.boundary = .quiet) : Moves [.plain, .time] s (advance s) := by
  have htick : Moves [.plain, .time] s _ := Moves.single (by simp) (.time (.tick h))
  unfold advance
  split
  · next h8 =>
    rw [if_pos h8] at htick
    exact htick.trans ((markDue_plain _).widen (by simp))
  · next h8 =>
    rw [if_neg h8] at htick
    exact htick

/-! ### The row links (chapter 08) -/

/-- The kinds of changes that an event of a window brings. -/
def linkKinds : List Kind := [.plain, .window]

theorem setFeedPhase_moves (slot : Slot) (m : Option Answer) (b : PendingBlock) (s : State) :
    Moves linkKinds s (setFeedPhase slot m b s) :=
  Moves.single (by decide) (.window (.feedPhase slot m b))

theorem countWindow_window (g : GlobalSettings) (good : Bool) (l : LinkSlot) :
    (l.countWindow g good).window = l.window := by
  unfold LinkSlot.countWindow
  split
  · split <;> rfl
  · rfl
  · rfl
  · split <;> rfl

theorem beginSlotEvaluation_moves (slot : Slot) (m : Option Answer) (s : State) :
    Moves linkKinds s (beginSlotEvaluation slot m s) := by
  unfold beginSlotEvaluation
  split
  · exact ((beginEvaluation_plain _ _ s).widen (by decide)).trans (setFeedPhase_moves ..)
  · exact setFeedPhase_moves ..

theorem upstreamPhaseEnd_moves (slot : Slot) (s : State) :
    Moves linkKinds s (upstreamPhaseEnd slot s) := by
  unfold upstreamPhaseEnd
  split
  · exact ((changePresence_plain slot (countWindow_window _ _) s).widen (by decide)).trans
      (beginSlotEvaluation_moves ..)
  · exact .refl s

theorem sendReady_moves (slot : Slot) (s : State) : Moves linkKinds s (sendReady slot s) := by
  unfold sendReady
  split
  · next m b _ =>
    have h : Moves linkKinds s (modLink slot
        (fun l => { l with window := .over, sent := some (feedOf m b s) }) s) :=
      Moves.single (by decide) (.window (.sent slot _))
    unfold sendFeed latchClipped
    split
    · exact h.trans ((latch_plain _ _).widen (by decide))
    · exact h
  · exact .refl s

theorem endPhase_moves (slot : Slot) (s : State) : Moves linkKinds s (endPhase slot s) := by
  unfold endPhase
  split
  · exact (((fetchStart_plain s).widen (by decide)).trans (upstreamPhaseEnd_moves slot _)).trans
      ((fetchStart_plain _).widen (by decide))
  · exact .refl s

theorem endPhases_moves (w : Nat) (s : State) : Moves linkKinds s (endPhases w s) :=
  Moves.foldl _ (fun s slot => endPhase_moves slot s) _ s

theorem beginTurnaround_moves (u : Target) (s : State) :
    Moves linkKinds s (beginTurnaround u s) := by
  unfold beginTurnaround
  split
  · split
    · exact endPhases_moves _ s
    · exact .refl s
  · exact .refl s

theorem readInTurnaround_moves (s : State) : Moves linkKinds s (readInTurnaround s) := by
  unfold readInTurnaround
  split
  · exact (beginTurnaround_moves _ s).trans ((predictionRead_plain _).widen (by decide))
  · exact .refl s

theorem endInTurnaround_moves (u : Target) (s : State) :
    Moves linkKinds s (endInTurnaround u s) := by
  unfold endInTurnaround
  split
  · exact (beginTurnaround_moves _ s).trans ((evaluationEnd_plain _ _).widen (by decide))
  · exact .refl s

theorem endSlotEvaluation_plain (slot : Slot) (s : State) :
    Plain s (endSlotEvaluation slot s) := by
  unfold endSlotEvaluation
  split
  · exact finishEvaluation_plain _ s
  · exact .refl s

theorem endEvaluations_plain (w : Nat) (s : State) : Plain s (endEvaluations w s) :=
  Moves.foldl _ (fun s slot => endSlotEvaluation_plain slot s) _ s

theorem openFeedPhases_moves (w : Nat) (s : State) : Moves linkKinds s (openFeedPhases w s) :=
  (endPhases_moves w s).trans ((endEvaluations_plain w _).widen (by decide))

theorem sendFeeds_moves (w : Nat) (s : State) : Moves linkKinds s (sendFeeds w s) :=
  Moves.foldl _ (fun s slot => sendReady_moves slot s) _ s

theorem runWindow_moves (w : Nat) (s : State) : Moves linkKinds s (runWindow w s) :=
  (openFeedPhases_moves w s).trans (sendFeeds_moves w _)

theorem runWindows_moves (w : Nat) (s : State) : Moves linkKinds s (runWindows w s) := by
  induction w with
  | zero => exact .refl s
  | succ w ih => exact ih.trans (runWindow_moves w _)

theorem inPlace_moves (p : Place) (slot : Slot) {f : State → State}
    (hf : ∀ s, Moves linkKinds s (f s)) (s : State) : Moves linkKinds s (inPlace p slot f s) := by
  unfold inPlace
  split
  · exact (runWindows_moves _ s).trans (hf _)
  · exact .refl s

theorem setAnswer_moves (slot : Slot) (a : Answer) (s : State) :
    Moves linkKinds s (setAnswer slot a s) :=
  Moves.single (by decide) (.window (.answer slot a))

theorem handToTable_moves (slot : Slot) (tag : Tag) {f : State → Reply × State}
    (hf : ∀ s, (getLink slot s).effective = .present → Plain s (f s).2) (s : State) :
    Moves linkKinds s (handToTable slot tag f s) :=
  ((answerIfPresent_plain slot (hf s)).widen (by decide)).trans (setAnswer_moves ..)

theorem discardMessage_moves (slot : Slot) (s : State) :
    Moves linkKinds s (discardMessage slot s) :=
  setAnswer_moves ..

theorem inWindow_moves (slot : Slot) {f : State → State} (hf : ∀ s, Moves linkKinds s (f s))
    (s : State) : Moves linkKinds s (inWindow slot f s) := by
  unfold inWindow
  split
  · exact hf s
  · exact .refl s

theorem takeNotice_moves (slot : Slot) (m : NoticeFields) (s : State) :
    Moves linkKinds s (takeNotice slot m s) := by
  unfold takeNotice
  split
  · exact handToTable_moves slot _ (fun _ h => noticePresent_plain slot m h) s
  · exact discardMessage_moves slot s

theorem takeStatus_moves (slot : Slot) (m : StatusFields) (s : State) :
    Moves linkKinds s (takeStatus slot m s) := by
  have hdrive : Plain s (setDrive slot m.drive s) :=
    Plain.of (.link (.mod slot _ rfl (.inl rfl)))
  have hshock : ∀ s, Plain s (statusShock slot m.shock s) := fun s => by
    unfold statusShock
    split
    · exact trigger_plain slot s
    · exact .refl s
  have hhand : ∀ s, Plain s (statusHandResidual slot m s) := fun s => by
    unfold statusHandResidual
    split
    · exact statusResidual_plain _ _ _ _ s
    · exact .refl s
  exact (((hdrive.trans (hshock _)).trans (hhand _)).widen (by decide)).trans (setAnswer_moves ..)

theorem forcePresence_plain (a : ForceArgs) (s : State) : Plain s (forcePresence a s) := by
  unfold forcePresence
  split
  · next mode _ _ =>
    exact (changePresence_plain _ (fun l => by cases mode <;> rfl) s).trans (respond_plain _ _)
  · exact respond_plain _ s

theorem periodWindows_moves (i : Nat) (s : State) : Moves linkKinds s (periodWindows i s) := by
  unfold periodWindows periodPhases
  refine (runWindows_moves (windowsEnded i) s).trans ?_
  split
  · exact openFeedPhases_moves _ _
  · split
    · exact endPhases_moves _ _
    · exact .refl _

/-- The kinds of changes that the windows bring together with what is due before them. -/
def turnKinds : List Kind := [.opened, .plain, .time, .boundary, .window]

/-- What the end of a sample period does before chassis time advances (R72, R151, R152). -/
def periodEnded (s : State) : State :=
  finishStationEvaluations (periodWindows (periodOf s.now).val (takeDue s))

theorem chassisTimeAdvance_eq (s : State) : chassisTimeAdvance s = advance (periodEnded s) := rfl

theorem periodEnded_moves (s : State) : Moves linkKinds (takeDue s) (periodEnded s) :=
  (periodWindows_moves _ _).trans ((finishStationEvaluations_plain _).widen (by decide))

theorem clockPart_periodEnded (s : State) :
    clockPart (periodEnded s) = clockPart { s with boundary := .quiet } :=
  ((periodEnded_moves s).clockPart (by simp [linkKinds])).trans (clockPart_takeDue s)

theorem chassisTimeAdvance_moves (s : State) : Moves turnKinds s (chassisTimeAdvance s) :=
  (((takeDue_moves s).mono (by decide)).trans ((periodEnded_moves s).mono (by decide))).trans
    ((advance_moves (clockPart_boundary (clockPart_periodEnded s))).mono (by decide))

theorem inTurn_moves (p : Place) (slot : Slot) {f : State → State}
    (hf : ∀ s, Moves linkKinds s (f s)) (h : inTurn p slot f s = .next t) : Moves turnKinds s t :=
  running_moves (by decide) (fun s => ((takeDue_moves s).mono (by decide)).trans
    ((inPlace_moves p slot hf _).mono (by decide))) h

theorem message_moves (slot : Slot) {f : State → State} (hf : ∀ s, Moves linkKinds s (f s))
    (h : message slot f s = .next t) : Moves turnKinds s t :=
  inTurn_moves .message slot (inWindow_moves slot hf) h

/-! ### Resets and settings (chapter 09) -/

theorem warmReset_eq (cause : ResetCause) (s : State) :
    warmReset cause s = warmed cause (takeBoundary s) := rfl

theorem warmReset_moves (cause : ResetCause) (s : State) :
    Moves [.opened, .plain, .time, .boundary, .warm] s (warmReset cause s) :=
  ((takeBoundary_moves s).mono (by decide)).trans
    (Moves.single (by simp) (.warm cause _ (takeBoundary_boundary s)))

theorem coldReset_moves (cause : ResetCause) (s : State) :
    Moves [.opened, .plain, .cold] s (coldReset cause s) :=
  Moves.single (by simp) (.cold cause _ s)

theorem settingWrite_moves (a : SettingAddr × SettingValue) (s : State) :
    Moves [.opened, .plain, .settings] s (settingWrite a s) := by
  unfold settingWrite
  split
  · exact (respond_plain _ s).widen (by simp)
  · split
    · exact (respond_plain _ s).widen (by simp)
    · next site _ _ g hg =>
      exact (Moves.single (by simp) (.settings site a.2 g s hg)).trans
        ((respond_plain _ _).widen (by simp))

theorem readFlags_moves (s : State) : Moves [.opened, .plain, .flags] s (readFlags s) :=
  (Moves.single (by simp) (.flags s)).trans ((respond_plain _ _).widen (by simp))

/-! ### Every command -/

/-- The kinds of changes that a command may bring. -/
def kindsOf : Instr → List Kind
  | .notice _ _ | .amend _ _ | .withdraw _ _ | .close _ _ _ | .status _ _ | .malformedMessage _
  | .upstreamPhaseEnd _ | .feed _ | .chassisTimeAdvance => turnKinds
  | .predictionListRead | .evaluationEnd _ => [.opened, .plain, .window]
  | .frameBoundary _ => [.opened, .plain, .boundary]
  | .sweepEnd _ => [.opened, .plain, .time, .boundary, .sweep]
  | .settingWrite _ => [.opened, .plain, .settings]
  | .readFlags _ => [.opened, .plain, .flags]
  | .restartWarm _ | .warmLine => [.opened, .plain, .time, .boundary, .warm]
  | .restartCold _ | .resetLine | .powerUp => [.opened, .plain, .cold]
  | _ => [.opened, .plain]

/-- A management command whose change is plain. -/
theorem manage_plain {α : Type} {p : Payload α} {f : α → State → State}
    (hf : ∀ a s, Plain s (f a s)) (h : manage p f s = .next t) : Moves [.opened, .plain] s t :=
  manage_moves (by simp) (by simp) (fun a s _ => (ended_plain (hf a) s).widen (by simp)) h

/-- A management command whose change is plain where its frame is not refused. -/
theorem manage_judged {α : Type} {p : Payload α} {f : α → State → State}
    (hf : ∀ a s, frameRefused s = false → Plain s (f a (endTransaction s)))
    (h : manage p f s = .next t) : Moves [.opened, .plain] s t :=
  manage_moves (by simp) (by simp) (fun a s hr => (hf a s hr).widen (by simp)) h

/-- A management command whose change is of other kinds too. -/
theorem manage_of_moves {K : List Kind} {α : Type} {p : Payload α} {f : α → State → State}
    (hopened : Kind.opened ∈ K) (hplain : Kind.plain ∈ K) (hf : ∀ a s, Moves K s (f a s))
    (h : manage p f s = .next t) : Moves K s t :=
  manage_moves hopened hplain
    (fun a s _ => ((endTransaction_plain s).widen hplain).trans (hf a _)) h

theorem afterEvents_plain {f : State → State} (hf : ∀ s, Plain s (f s))
    (h : afterEvents f s = .next t) : Moves [.opened, .plain] s t :=
  afterEvents_moves (by simp) (by simp) (fun s => (hf s).widen (by simp)) h

theorem running_plain {f : State → State} (hf : ∀ s, Plain s (f s))
    (h : running f s = .next t) : Moves [.opened, .plain] s t :=
  running_moves (by simp) (fun s => (hf s).widen (by simp)) h

theorem unknownCommand_plain (code : Byte) (s : State) : Plain s (unknownCommand code s) := by
  unfold unknownCommand
  split
  · exact .refl s
  · split
    · exact endTransaction_plain s
    · exact ended_respond_plain _ s

theorem execUnknownCommand_moves (code : Byte) (h : execUnknownCommand code s = .next t) :
    Moves [.opened, .plain] s t := by
  refine onPart_moves (by simp) (fun s => ?_)
    (fun s => ((takeMoment_plain s).trans (unknownCommand_plain code _)).widen (by simp)) h
  split
  · exact .refl s
  · exact (endTransaction_plain s).widen (by simp)

theorem execTransactionStart_moves (h : execTransactionStart s = .next t) :
    Moves [.opened, .plain] s t :=
  onPart_moves (by simp) (fun s => (Plain.of (.port .untaken)).widen (by simp))
    (fun s => ((takeMoment_plain s).trans (Plain.of (.port .start))).widen (by simp)) h

/-- Every command is made of small changes of the kinds it may bring. -/
theorem exec_moves (c : Instr) (h : exec c s = .next t) : Moves (kindsOf c) s t := by
  cases c with
  | chassisTimeAdvance => exact running_moves (by decide) chassisTimeAdvance_moves h
  | frameBoundary acts =>
    change Moves [.opened, .plain, .boundary] s t
    exact afterEvents_moves (by decide) (by decide)
      (fun s => (frameBoundary_moves acts s).mono (by decide)) h
  | settleEnd u => exact afterEvents_plain (settleEnd_plain u) h
  | divergenceHoldEnd u => exact afterEvents_plain (divergenceHoldEnd_plain u) h
  | shockHoldEnd k => exact afterEvents_plain (shockHoldEnd_plain k) h
  | holdExpiry slot => exact afterEvents_plain (holdExpiry_plain slot) h
  | recordStartReached r => exact running_plain (recordStart_plain r) h
  | recordEndReached r => exact running_plain (recordEnd_plain r) h
  | retirement r => exact running_plain (recordRetirement_plain r) h
  | notice slot m =>
    change Moves turnKinds s t
    exact running_moves (by decide) (fun s => ((takeDueFor_moves m.profile s).mono (by decide)).trans
      ((inPlace_moves .message slot (inWindow_moves slot (takeNotice_moves slot m)) _).mono
        (by decide))) h
  | amend slot m =>
    refine message_moves slot (fun s => ?_) h
    split
    · exact handToTable_moves slot _ (fun s _ => amendPresent_plain slot m s) s
    · exact discardMessage_moves slot s
  | withdraw slot tag =>
    exact message_moves slot
      (handToTable_moves slot _ fun s _ => withdrawPresent_plain slot tag s) h
  | close slot tag stamp =>
    exact message_moves slot
      (handToTable_moves slot _ fun s _ => closePresent_plain slot tag stamp s) h
  | status slot m => exact message_moves slot (takeStatus_moves slot m) h
  | malformedMessage slot => exact message_moves slot (discardMessage_moves slot) h
  | upstreamPhaseEnd slot => exact inTurn_moves .phaseEnd slot (upstreamPhaseEnd_moves slot) h
  | predictionListRead =>
    exact afterEvents_moves (by decide) (by decide)
      (fun s => (readInTurnaround_moves s).mono (by decide)) h
  | evaluationEnd u =>
    change Moves [.opened, .plain, .window] s t
    exact afterEvents_moves (by decide) (by decide)
      (fun s => (endInTurnaround_moves u s).mono (by decide)) h
  | feed slot =>
    exact inTurn_moves .feed slot
      (fun s => (openFeedPhases_moves _ s).trans (sendReady_moves slot _)) h
  | gainUpdate => exact afterEvents_plain gainUpdate_plain h
  | channelWord tag v => exact afterEvents_plain (channelWord_plain tag v) h
  | sweepEnd stamp =>
    change Moves [.opened, .plain, .time, .boundary, .sweep] s t
    exact afterEvents_moves (by decide) (by decide)
      (fun s => ((takeBoundary_moves s).mono (by decide)).trans
        ((closeSweep_moves stamp _).mono (by decide))) h
  | discardedWord => exact afterEvents_plain .refl h
  | fetchStart => exact afterEvents_plain fetchStart_plain h
  | fetchCompleteGood page => exact afterEvents_plain (fetchCompleteGood_plain page) h
  | fetchCompleteBad => exact afterEvents_plain fetchCompleteBad_plain h
  | identify p => exact manage_plain (fun _ _ => respond_plain _ _) h
  | readFlags p =>
    change Moves [.opened, .plain, .flags] s t
    exact manage_of_moves (by decide) (by decide) (fun _ => readFlags_moves) h
  | setAlertMask p =>
    exact manage_plain (fun _ _ => (Plain.of (.port (.mask _))).trans (respond_plain _ _)) h
  | settingWrite p =>
    change Moves [.opened, .plain, .settings] s t
    exact manage_of_moves (by decide) (by decide) settingWrite_moves h
  | settingRead p =>
    refine manage_plain (fun a s => ?_) h
    unfold settingRead
    split <;> exact respond_plain _ s
  | listWrite p => exact manage_judged (fun a _ => listWrite_plain a) h
  | listWriteGrant => exact afterEvents_plain listWriteGrant_plain h
  | listRead p => exact manage_judged (fun a _ => listRead_plain a) h
  | listReadGrant => exact afterEvents_plain listReadGrant_plain h
  | capture p => exact manage_judged (fun _ _ => capture_plain) h
  | captureEmptyGrant => exact afterEvents_plain captureEmptyGrant_plain h
  | captureCopyGrant => exact afterEvents_plain captureCopyGrant_plain h
  | swapRequest p => exact manage_judged (fun _ _ => swapRequest_plain) h
  | swapCancel p => exact manage_judged (fun _ _ => swapCancel_plain) h
  | sourceQuery p => exact manage_plain (fun _ _ => respond_plain _ _) h
  | sourceList p => exact manage_judged (fun a _ => sourceList_plain a) h
  | sourceListGrant => exact afterEvents_plain sourceListGrant_plain h
  | targetRead p => exact manage_plain (fun _ _ => respond_plain _ _) h
  | stationRead p => exact manage_plain (fun _ _ => respond_plain _ _) h
  | cacheRead p => exact manage_plain (fun _ _ => respond_plain _ _) h
  | preload p => exact manage_plain (withProfile_plain preloadId_plain) h
  | retry p => exact manage_plain (withProfile_plain retryId_plain) h
  | drop p =>
    change Moves [.opened, .plain] s t
    exact manageAfter_moves (by decide) (by decide) (beforeDrop_plain p)
      (fun a s _ => (ended_plain (withProfile_plain dropId_plain a) s).widen (by decide)) h
  | lend p => exact manage_plain (fun _ => lendPort_plain) h
  | reclaim p => exact manage_plain (fun _ => reclaimPort_plain) h
  | forcePresence p => exact manage_plain forcePresence_plain h
  | forceLock p => exact manage_plain forceLock_plain h
  | suppressClear p => exact manage_plain suppressClear_plain h
  | holdShorten p => exact manage_plain holdShorten_plain h
  | restartWarm p =>
    change Moves [.opened, .plain, .time, .boundary, .warm] s t
    exact manage_of_moves (by decide) (by decide)
      (fun _ s => ((respond_plain _ s).widen (by decide)).trans (warmReset_moves _ _)) h
  | restartCold p =>
    change Moves [.opened, .plain, .cold] s t
    exact manage_of_moves (by decide) (by decide) (fun _ => coldReset_moves _) h
  | unknownCommand code => exact execUnknownCommand_moves code h
  | warmLine => exact afterEvents_moves (by decide) (by decide) (warmReset_moves _) h
  | resetLine => cases h; exact coldReset_moves _ s
  | powerUp => cases h; exact coldReset_moves _ s
  | coldResetEnd =>
    cases h
    split
    · exact Moves.single (by decide) (.opened s)
    · exact .refl s
  | transactionStart => exact execTransactionStart_moves h

end Sys2Proof.Machine
end

section
/-! PROOF. The law of the Source Table (R1, R6): what each small change leaves of the records, the
live counts and the tags. -/

namespace Sys2Proof.Machine

variable {s t : State}

/-! ### Laws kept by every command -/

/-- What every small change keeps, every command keeps. -/
theorem exec_keeps {P : State → Prop}
    (hP : ∀ (k : Kind) (s t : State), k ≠ .boundary → Change k s t → P s → P t) {c : Instr}
    (h : exec c s = .next t) (hs : P s) : P t := by
  refine (exec_moves c h).keeps (fun k _ s t hc hs => ?_) hs
  by_cases hk : k = .boundary
  · refine (boundary_moves hk hc).keeps (fun k' hk' s t hc hs => hP k' s t ?_ hc hs) hs
    rintro rfl
    simp at hk'
  · exact hP k s t hk hc hs

/-- A law that does not speak of the queue of commands is kept by every step. -/
theorem step_keeps {P : State → Prop} (hqueue : ∀ s q, P s → P (s.withQueue q))
    (hexec : ∀ (c : Instr) (s t : State), exec c s = .next t → P s → P t)
    (h : step s = .next t) (hs : P s) : P t := by
  unfold step at h
  split at h
  · cases h; exact hs
  · exact hexec _ _ _ h (hqueue _ _ hs)

/-! ### Counting entries -/

/-- Two tests that differ at one member of a list alone: the members that pass them. -/
theorem length_filter_of_eq_off {α : Type} {l : List α} (hl : l.Nodup) {r : α} (hr : r ∈ l)
    {p q : α → Bool} (h : ∀ i, i ≠ r → p i = q i) :
    (l.filter p).length + (q r).toNat = (l.filter q).length + (p r).toNat := by
  induction l with
  | nil => exact absurd hr List.not_mem_nil
  | cons a l ih =>
    obtain ⟨ha, hl⟩ := List.nodup_cons.mp hl
    by_cases har : a = r
    · subst har
      have hrest : l.filter p = l.filter q :=
        List.filter_congr fun i hi => h i fun e => ha (e ▸ hi)
      cases hp : p a <;> cases hq : q a <;> simp [hp, hq, hrest]
    · have hm : r ∈ l := (List.mem_cons.mp hr).resolve_left fun e => har e.symm
      have := ih hl hm
      cases hq : q a <;> simp [h a har, hq] <;> omega

/-- The entries of a table, in the order of their numbers. -/
theorem toList_eq_map_tget {α : Type} {n : Nat} (t : Vector α n) :
    t.toList = (List.finRange n).map (tget t) := by
  apply List.ext_getElem
  · simp
  · intro i h _
    simp [tget]

/-- How many entries pass a test once one entry has been replaced. -/
theorem length_indicesWhere_tset {α : Type} {n : Nat} (t : Vector α n) (i : Fin n) (v : α)
    (p : α → Bool) :
    (indicesWhere (tset t i v) p).length + (p (tget t i)).toNat =
      (indicesWhere t p).length + (p v).toNat := by
  have h := length_filter_of_eq_off (List.nodup_finRange n) (List.mem_finRange i)
    (p := fun j => p (tget (tset t i v) j)) (q := fun j => p (tget t j))
    fun j hj => by rw [tget_tset_of_ne t v hj]
  simpa [indicesWhere] using h

/-! ### What becomes of the table -/

/-- A small change makes a change of the table, or leaves the table, or empties it. -/
theorem Change.table_cases {k : Kind} (hk : k ≠ .boundary) (h : Change k s t) :
    TableChange s t ∨ t.table = s.table ∨ t.table = emptyTable := by
  cases h with
  | table h => exact .inl h
  | cache h => rw [h.frame]; exact .inr (.inl rfl)
  | store h => rw [h.frame]; exact .inr (.inl rfl)
  | prediction h => rw [h.frame]; exact .inr (.inl rfl)
  | adapt h => rw [h.frame]; exact .inr (.inl rfl)
  | station h => rw [h.frame]; exact .inr (.inl rfl)
  | suppression h => rw [h.frame]; exact .inr (.inl rfl)
  | link h => rw [h.frame]; exact .inr (.inl rfl)
  | port h => rw [h.frame]; exact .inr (.inl rfl)
  | time h => rw [h.frame]; exact .inr (.inl rfl)
  | window h => rw [h.frame]; exact .inr (.inl rfl)
  | frame h => rw [h.frame]; exact .inr (.inl rfl)
  | sweep h => rw [h.frame]; exact .inr (.inl rfl)
  | opened | taken | settings | flags => exact .inr (.inl rfl)
  | warm | cold => exact .inr (.inr rfl)
  | boundary => exact absurd rfl hk

/-! ### The law of the Source Table (R1, R6) -/

/-- The test by which a record counts for a slot. -/
def countsFor (slot : Slot) (v : SourceRecord) : Bool := isLive v && decide (v.slot = slot)

theorem liveOfSlot_eq (slot : Slot) (s : State) :
    liveOfSlot slot s = indicesWhere s.table.records (countsFor slot) := rfl

/-- How many live records a slot has once one record has been replaced. -/
theorem length_liveOfSlot_of_replaced {r : RecordNo} {v : SourceRecord} (slot : Slot)
    (h : t.table.records = tset s.table.records r v) :
    (liveOfSlot slot t).length + (countsFor slot (getRecord r s)).toNat =
      (liveOfSlot slot s).length + (countsFor slot v).toNat := by
  rw [liveOfSlot_eq, liveOfSlot_eq, h]
  exact length_indicesWhere_tset _ _ _ _

theorem countsFor_freeRecord (slot : Slot) : countsFor slot freeRecord = false := rfl

theorem countsFor_of_live {slot : Slot} {v : SourceRecord} (h : isLive v = true) :
    countsFor slot v = decide (v.slot = slot) := by
  simp [countsFor, h]

theorem countsFor_of_free {slot : Slot} {v : SourceRecord} (h : isLive v = false) :
    countsFor slot v = false := by
  simp [countsFor, h]

/-- Each slot's live count is the number of its live records, at most 3. -/
def LiveCountLaw (s : State) : Prop :=
  ∀ slot : Slot, getLive slot s = (liveOfSlot slot s).length ∧ getLive slot s ≤ 3

/-- No two live records of one slot share a tag. -/
def TagLaw (s : State) : Prop :=
  ∀ r q : RecordNo, isLive (getRecord r s) → isLive (getRecord q s) →
    (getRecord r s).slot = (getRecord q s).slot → (getRecord r s).tag = (getRecord q s).tag → r = q

theorem tableChange_keeps_liveCountLaw (h : TableChange s t) (hs : LiveCountLaw s) :
    LiveCountLaw t := by
  intro slot
  obtain ⟨hcount, hle⟩ := hs slot
  cases h with
  | restate r v hr hv hslot _ _ =>
    have := length_liveOfSlot_of_replaced (s := s) (t := setRecord r v s) slot rfl
    rw [countsFor_of_live hr, countsFor_of_live hv, hslot] at this
    rw [getLive_setRecord]
    omega
  | retire r hr =>
    have := length_liveOfSlot_of_replaced (s := s) (t := retire r s) slot rfl
    rw [countsFor_of_live hr, countsFor_freeRecord] at this
    rw [(retire_spec r s).2.2.1 slot]
    by_cases he : slot = (getRecord r s).slot
    · simp [he] at this ⊢
      rw [← he] at this ⊢
      omega
    · simp [he, Ne.symm he] at this ⊢
      omega
  | fill r v hr hv _ hlive _ =>
    have := length_liveOfSlot_of_replaced (s := s) (t := modLive v.slot (· + 1)
      (setRecord r v (modCount v.profile (· + 1) s))) slot rfl
    rw [countsFor_of_free hr, countsFor_of_live hv] at this
    rw [getLive_modLive, getLive_setRecord, getLive_modCount]
    by_cases he : slot = v.slot
    · subst he
      simp at this ⊢
      omega
    · simp [he, Ne.symm he] at this ⊢
      omega

theorem tableChange_keeps_tagLaw (h : TableChange s t) (hs : TagLaw s) : TagLaw t := by
  cases h with
  | restate r v hr hv hslot htag _ =>
    have hsame : ∀ q : RecordNo, isLive (getRecord q (setRecord r v s)) = isLive (getRecord q s) ∧
        (getRecord q (setRecord r v s)).slot = (getRecord q s).slot ∧
        (getRecord q (setRecord r v s)).tag = (getRecord q s).tag := fun q => by
      rw [getRecord_setRecord]
      split
      · next e => rw [e]; exact ⟨hv.trans hr.symm, hslot, htag⟩
      · exact ⟨rfl, rfl, rfl⟩
    intro q q' hq hq' hslot htag
    rw [(hsame _).1] at hq hq'
    rw [(hsame _).2.1, (hsame _).2.1] at hslot
    rw [(hsame _).2.2, (hsame _).2.2] at htag
    exact hs q q' hq hq' hslot htag
  | retire r hr =>
    have hother : ∀ q : RecordNo, isLive (getRecord q (retire r s)) = true →
        getRecord q (retire r s) = getRecord q s := fun q hq => by
      refine getRecord_retire_of_ne (fun e => ?_) s
      rw [e, (retire_spec r s).1] at hq
      exact absurd hq (by decide)
    intro q q' hq hq' hslot htag
    have e := hother q hq
    have e' := hother q' hq'
    rw [e] at hq hslot htag
    rw [e'] at hq' hslot htag
    exact hs q q' hq hq' hslot htag
  | fill r v hr hv hfind _ _ =>
    have hnew : ∀ q : RecordNo, isLive (getRecord q s) = true → (getRecord q s).slot = v.slot →
        (getRecord q s).tag ≠ v.tag := fun q hq hslot htag => by
      have := (firstWhere_none _ _).mp hfind q
      simp only [getRecord] at hq hslot htag
      simp [hq, hslot, htag] at this
    intro q q' hq hq' hslot htag
    simp only [getRecord_modLive, getRecord_setRecord, getRecord_modCount] at hq hq' hslot htag
    by_cases he : q = r <;> by_cases he' : q' = r
    · rw [he, he']
    · simp only [he, he', if_true, if_false] at hq' hslot htag
      exact absurd htag.symm (hnew q' hq' hslot.symm)
    · simp only [he, he', if_true, if_false] at hq hslot htag
      exact absurd htag (hnew q hq hslot)
    · simp only [he, he', if_false] at hq hq' hslot htag
      exact hs q q' hq hq' hslot htag

/-- The law speaks of the table alone. -/
theorem sourceTableLaw_of_table (h : t.table = s.table) (hs : SourceTableLaw s) :
    SourceTableLaw t := by
  simpa only [SourceTableLaw, getLive, liveOfSlot, getRecord, h] using hs

theorem sourceTableLaw_of_empty (h : t.table = emptyTable) : SourceTableLaw t := by
  have hfree : ∀ r : RecordNo, isLive (getRecord r t) = false := fun r => by
    simp [getRecord, h, emptyTable, isLive, freeRecord]
  refine ⟨fun slot => ?_, fun r q hr => absurd hr (by simp [hfree r])⟩
  have hlive : getLive slot t = 0 := by simp [getLive, h, emptyTable]
  have hnone : liveOfSlot slot t = [] := by
    rw [List.eq_nil_iff_forall_not_mem]
    intro r hr
    have := ((mem_liveOfSlot slot r t).mp hr).1
    rw [hfree r] at this
    exact absurd this (by decide)
  rw [hlive, hnone]
  exact ⟨rfl, by decide⟩

theorem change_keeps_sourceTableLaw {k : Kind} (hk : k ≠ .boundary) (h : Change k s t)
    (hs : SourceTableLaw s) : SourceTableLaw t := by
  rcases h.table_cases hk with h | h | h
  · exact ⟨tableChange_keeps_liveCountLaw h hs.1, tableChange_keeps_tagLaw h hs.2⟩
  · exact sourceTableLaw_of_table h hs
  · exact sourceTableLaw_of_empty h

/-- Settles O4: records are only restated, retired or filled, and each of these keeps the counts and
the tags. -/
theorem stepsKeepTheSourceTableLaw : Obligations.StepsKeepTheSourceTableLaw := by
  unfold Obligations.StepsKeepTheSourceTableLaw
  exact fun s t hs h => step_keeps (P := SourceTableLaw) (fun _ _ h => h)
    (fun c s t h => exec_keeps (fun k s t => change_keeps_sourceTableLaw) h) h hs

end Sys2Proof.Machine
end

section
/-! PROOF. The laws of the Profile Cache (R33 to R38) and of its reference counts (R35). -/

namespace Sys2Proof.Machine

variable {s t : State}

/-! ### What becomes of table and cache -/

/-- A small change makes a change of the table or of the cache, or leaves both, or is a reset. -/
theorem Change.memory_cases {k : Kind} (hk : k ≠ .boundary) (h : Change k s t) :
    TableChange s t ∨ CacheChange s t ∨ (t.table = s.table ∧ t.cache = s.cache) ∨
      (t.table = emptyTable ∧ (t.cache = s.cache.warm ∨ t.cache = coldCache)) := by
  cases h with
  | table h => exact .inl h
  | cache h => exact .inr (.inl h)
  | store h => rw [h.frame]; exact .inr (.inr (.inl ⟨rfl, rfl⟩))
  | prediction h => rw [h.frame]; exact .inr (.inr (.inl ⟨rfl, rfl⟩))
  | adapt h => rw [h.frame]; exact .inr (.inr (.inl ⟨rfl, rfl⟩))
  | station h => rw [h.frame]; exact .inr (.inr (.inl ⟨rfl, rfl⟩))
  | suppression h => rw [h.frame]; exact .inr (.inr (.inl ⟨rfl, rfl⟩))
  | link h => rw [h.frame]; exact .inr (.inr (.inl ⟨rfl, rfl⟩))
  | port h => rw [h.frame]; exact .inr (.inr (.inl ⟨rfl, rfl⟩))
  | time h => rw [h.frame]; exact .inr (.inr (.inl ⟨rfl, rfl⟩))
  | window h => rw [h.frame]; exact .inr (.inr (.inl ⟨rfl, rfl⟩))
  | frame h => rw [h.frame]; exact .inr (.inr (.inl ⟨rfl, rfl⟩))
  | sweep h => rw [h.frame]; exact .inr (.inr (.inl ⟨rfl, rfl⟩))
  | opened | taken | settings | flags => exact .inr (.inr (.inl ⟨rfl, rfl⟩))
  | warm => exact .inr (.inr (.inr ⟨rfl, .inl rfl⟩))
  | cold => exact .inr (.inr (.inr ⟨rfl, .inr rfl⟩))
  | boundary => exact absurd rfl hk

/-! ### The law of the cache, by its parts -/

/-- The parts of the law of the Profile Cache, each under a name (R33, R34, R36, R37, R38). -/
structure CacheLaw (c : ProfileCache) : Prop where
  queue_length : c.queue.length ≤ 16
  queue_nodup : c.queue.Nodup
  lru_nodup : c.lru.Nodup
  mem_lru : ∀ n : CacheNo, n ∈ c.lru ↔ (tget c.slots n).isFilled = true
  lengths : ∀ n : CacheNo, (tget c.slots n).lengthOk = true
  held_once : ∀ n m : CacheNo, (tget c.slots n).heldId ≠ none →
    (tget c.slots n).heldId = (tget c.slots m).heldId → n = m
  filling : ∀ n : CacheNo, (tget c.slots n).fillingId = c.flightTo n
  queued_not_held : ∀ n : CacheNo, ∀ id ∈ c.queue, (tget c.slots n).heldId ≠ some id
  unusable_not_queued : ∀ id : ProfileId, tget c.unusable id = true → id ∉ c.queue
  unusable_not_held : ∀ id : ProfileId, tget c.unusable id = true →
    ∀ n : CacheNo, (tget c.slots n).heldId ≠ some id
  flight_not_lent : c.flight.isSome = true → c.port ≠ .lent

theorem profileCacheLaw_iff : ProfileCacheLaw s ↔ CacheLaw s.cache := by
  constructor
  · rintro ⟨⟨hl, hn⟩, ⟨hlru, hmem⟩, hlen, honce, hfill, hqueue, hun, hlent⟩
    exact ⟨hl, hn, hlru, hmem, hlen, honce, hfill, hqueue, fun id h => (hun id h).1,
      fun id h => (hun id h).2, hlent⟩
  · intro h
    exact ⟨⟨h.queue_length, h.queue_nodup⟩, ⟨h.lru_nodup, h.mem_lru⟩, h.lengths, h.held_once,
      h.filling, h.queued_not_held,
      fun id hu => ⟨h.unusable_not_queued id hu, h.unusable_not_held id hu⟩, h.flight_not_lent⟩

/-- Two cache slots that hold the same and differ at most in their reference count. -/
def CacheSlot.sameBut (x y : CacheSlot) : Prop :=
  x.heldId = y.heldId ∧ x.isFilled = y.isFilled ∧ x.fillingId = y.fillingId ∧
    x.lengthOk = y.lengthOk

theorem CacheSlot.mapCount_sameBut (id : ProfileId) (f : Nat → Nat) (x : CacheSlot) :
    (x.mapCount id f).sameBut x := by
  cases x <;> exact ⟨rfl, rfl, rfl, rfl⟩

/-- The law does not speak of the reference counts. -/
theorem CacheLaw.of_sameBut {c : ProfileCache} (h : CacheLaw c) {v : Vector CacheSlot 32}
    (hv : ∀ n, (tget v n).sameBut (tget c.slots n)) : CacheLaw { c with slots := v } := by
  have held := fun n => (hv n).1
  have isFilled := fun n => (hv n).2.1
  have fillingId := fun n => (hv n).2.2.1
  have lengthOk := fun n => (hv n).2.2.2
  refine ⟨h.queue_length, h.queue_nodup, h.lru_nodup, ?_, ?_, ?_, ?_, ?_, h.unusable_not_queued, ?_,
    h.flight_not_lent⟩
  · exact fun n => by rw [isFilled]; exact h.mem_lru n
  · exact fun n => by rw [lengthOk]; exact h.lengths n
  · exact fun n m => by rw [held, held]; exact h.held_once n m
  · exact fun n => by rw [fillingId]; exact h.filling n
  · exact fun n id => by rw [held]; exact h.queued_not_held n id
  · exact fun id hu n => by rw [held]; exact h.unusable_not_held id hu n

/-- What a cache slot that is FILLED, FILLING or EMPTY holds. -/
theorem CacheSlot.heldId_of_fillingId {x : CacheSlot} {id : ProfileId}
    (h : x.fillingId = some id) : x.heldId = some id ∧ x.isFilled = false ∧ x.lengthOk = true := by
  cases x with
  | filling i => exact ⟨h, rfl, rfl⟩
  | empty => cases h
  | filled i p n => cases h

theorem CacheSlot.isFilled_of_replaceable {x : CacheSlot} (h : x.replaceable = true) :
    x.isFilled = true ∧ x.fillingId = none := by
  cases x with
  | filled i p n => exact ⟨rfl, rfl⟩
  | empty => cases h
  | filling i => cases h

theorem CacheSlot.filledWith_of_heldId {x : CacheSlot} {id : ProfileId} (h : x.heldId = some id)
    (hf : x.fillingId = none) : x.filledWith id = true := by
  cases x with
  | filled i p n =>
    obtain rfl : i = id := Option.some.inj h
    simp [CacheSlot.filledWith]
  | empty => cases h
  | filling i => cases hf

/-- The slot a fetch start takes is EMPTY, or FILLED with count 0 (R39). -/
theorem fetchTarget_some {c : CacheNo} (h : fetchTarget s = some c) :
    tget s.cache.slots c = .empty ∨ (tget s.cache.slots c).replaceable = true := by
  unfold fetchTarget at h
  split at h
  · next d hd =>
    cases h
    exact .inl (by simpa using firstWhere_holds hd)
  · exact .inr (by simpa using List.find?_some h)

/-- The flight reaches one slot alone. -/
theorem flightTo_some (c : ProfileCache) (f : Flight) (n : CacheNo) :
    ({ c with flight := some f } : ProfileCache).flightTo n =
      if f.slot = n then some f.id else none := rfl

theorem flightTo_none (c : ProfileCache) (n : CacheNo) (h : c.flight = none) :
    c.flightTo n = none := by
  simp [ProfileCache.flightTo, h]

theorem CacheLaw.fillingId_of_no_flight {c : ProfileCache} (h : CacheLaw c) (hf : c.flight = none)
    (n : CacheNo) : (tget c.slots n).fillingId = none := by
  rw [h.filling, flightTo_none c n hf]

/-- A profile that is neither resident nor in flight is held by no slot. -/
theorem CacheLaw.not_held_of_absent {id : ProfileId} (h : CacheLaw s.cache)
    (hr : residentSlot id s = none) (hf : inFlight id s = false) (n : CacheNo) :
    (tget s.cache.slots n).heldId ≠ some id := by
  intro hheld
  have hfill := h.filling n
  rcases hx : (tget s.cache.slots n).fillingId with _ | id'
  · have := CacheSlot.filledWith_of_heldId hheld hx
    rw [(firstWhere_none _ _).mp hr n] at this
    exact absurd this (by decide)
  · have hid : id' = id := by
      have := (CacheSlot.heldId_of_fillingId hx).1
      rw [hheld] at this
      exact (Option.some.inj this).symm
    subst hid
    rw [hx] at hfill
    unfold ProfileCache.flightTo at hfill
    unfold inFlight at hf
    split at hfill
    · next f he =>
      split at hfill
      · rw [he] at hf
        simp [Option.some.inj hfill] at hf
      · cases hfill
    · cases hfill

/-! ### What each change of the cache keeps -/

/-- The part of a law that says what one slot is, once that slot has been replaced. -/
theorem CacheLaw.held_once_tset {c : ProfileCache} (h : CacheLaw c) {n : CacheNo} {v : CacheSlot}
    (hv : ∀ m : CacheNo, m ≠ n → v.heldId ≠ none → (tget c.slots m).heldId ≠ v.heldId)
    (m k : CacheNo) (hm : (tget (tset c.slots n v) m).heldId ≠ none)
    (he : (tget (tset c.slots n v) m).heldId = (tget (tset c.slots n v) k).heldId) : m = k := by
  by_cases hmn : m = n <;> by_cases hkn : k = n
  · rw [hmn, hkn]
  · subst hmn
    rw [tget_tset_self, tget_tset_of_ne _ _ hkn] at he
    rw [tget_tset_self] at hm
    exact absurd he.symm (hv k hkn hm)
  · subst hkn
    rw [tget_tset_self, tget_tset_of_ne _ _ hmn] at he
    rw [tget_tset_of_ne _ _ hmn, he] at hm
    exact absurd he (hv m hmn hm)
  · rw [tget_tset_of_ne _ _ hmn, tget_tset_of_ne _ _ hkn] at he
    rw [tget_tset_of_ne _ _ hmn] at hm
    exact h.held_once m k hm he

theorem CacheLaw.fetchInto {c : CacheNo} {id : ProfileId} {rest : List ProfileId}
    (h : CacheLaw s.cache) (hf : s.cache.flight = none) (hp : s.cache.port = .owned)
    (hq : s.cache.queue = id :: rest) (hc : fetchTarget s = some c) :
    CacheLaw (Machine.fetchInto c id rest s).cache := by
  have hlen := h.queue_length
  have hnd := h.queue_nodup
  rw [hq] at hlen hnd
  have hhead : ∀ n : CacheNo, (tget s.cache.slots n).heldId ≠ some id :=
    fun n => h.queued_not_held n id (by rw [hq]; exact List.mem_cons_self)
  have hrest : ∀ i ∈ rest, i ∈ s.cache.queue := fun i hi => by
    rw [hq]; exact List.mem_cons_of_mem _ hi
  constructor
  · show rest.length ≤ 16
    simp at hlen
    omega
  · exact (List.nodup_cons.mp hnd).2
  · exact h.lru_nodup.filter _
  · intro n
    show n ∈ s.cache.lru.filter _ ↔ (tget (tset s.cache.slots c _) n).isFilled = true
    by_cases hn : n = c
    · subst hn
      simp [CacheSlot.isFilled]
    · simp [tget_tset_of_ne _ _ hn, hn, h.mem_lru n]
  · intro n
    show (tget (tset s.cache.slots c _) n).lengthOk = true
    rw [tget_tset]
    split
    · rfl
    · exact h.lengths n
  · exact h.held_once_tset fun m _ _ => hhead m
  · intro n
    show (tget (tset s.cache.slots c (.filling id)) n).fillingId = if c = n then some id else none
    rw [tget_tset]
    by_cases hn : n = c
    · simp [hn, CacheSlot.fillingId]
    · rw [if_neg hn, if_neg (Ne.symm hn)]
      exact h.fillingId_of_no_flight hf n
  · intro n i hi
    show (tget (tset s.cache.slots c (.filling id)) n).heldId ≠ some i
    rw [tget_tset]
    split
    · intro e
      obtain rfl : id = i := Option.some.inj e
      exact (List.nodup_cons.mp hnd).1 hi
    · exact h.queued_not_held n i (hrest i hi)
  · exact fun i hu hi => h.unusable_not_queued i hu (hrest i hi)
  · intro i hu n
    show (tget (tset s.cache.slots c (.filling id)) n).heldId ≠ some i
    rw [tget_tset]
    split
    · intro e
      obtain rfl : id = i := Option.some.inj e
      exact h.unusable_not_queued id hu (by rw [hq]; exact List.mem_cons_self)
    · exact h.unusable_not_held i hu n
  · intro _
    show s.cache.port ≠ .lent
    rw [hp]
    decide

/-- The slot of the fetch in flight is FILLING with its id, and no other slot is FILLING. -/
theorem CacheLaw.fillingId_of_flight {c : ProfileCache} {f : Flight} (h : CacheLaw c)
    (hf : c.flight = some f) :
    (tget c.slots f.slot).fillingId = some f.id ∧
      ∀ n : CacheNo, n ≠ f.slot → (tget c.slots n).fillingId = none := by
  constructor
  · rw [h.filling]
    simp [ProfileCache.flightTo, hf]
  · intro n hn
    rw [h.filling]
    simp [ProfileCache.flightTo, hf, Ne.symm hn]

/-- No other slot holds the id of the fetch in flight. -/
theorem CacheLaw.heldId_ne_of_flight {c : ProfileCache} {f : Flight} (h : CacheLaw c)
    (hf : c.flight = some f) {n : CacheNo} (hn : n ≠ f.slot) :
    (tget c.slots n).heldId ≠ some f.id := by
  have hs := (CacheSlot.heldId_of_fillingId (h.fillingId_of_flight hf).1).1
  intro e
  exact hn (h.held_once n f.slot (by rw [e]; exact Option.some_ne_none _) (by rw [e, hs]))

theorem CacheLaw.fillSlot {f : Flight} {page : List Int} (h : CacheLaw s.cache)
    (hf : s.cache.flight = some f) (hlow : 1 ≤ page.length) (hhigh : page.length ≤ 256) :
    CacheLaw (Machine.fillSlot f page s).cache := by
  obtain ⟨hfill, hrest⟩ := h.fillingId_of_flight hf
  obtain ⟨hheld, hnot, -⟩ := CacheSlot.heldId_of_fillingId hfill
  have hheldId : ∀ n : CacheNo,
      (tget (tset s.cache.slots f.slot (.filled f.id page (liveNaming f.id s))) n).heldId =
        (tget s.cache.slots n).heldId := fun n => by
    rw [tget_tset]
    split
    · next e => rw [e, hheld]; rfl
    · rfl
  have hnew : f.slot ∉ s.cache.lru := fun e => by
    rw [h.mem_lru, hnot] at e
    exact absurd e (by decide)
  constructor
  · exact h.queue_length
  · exact h.queue_nodup
  · show (s.cache.lru ++ [f.slot]).Nodup
    rw [List.nodup_append]
    refine ⟨h.lru_nodup, List.nodup_singleton _, ?_⟩
    intro a ha b hb e
    rw [e, List.mem_singleton.mp hb] at ha
    exact hnew ha
  · intro n
    show n ∈ s.cache.lru ++ [f.slot] ↔ (tget (tset s.cache.slots f.slot _) n).isFilled = true
    by_cases hn : n = f.slot
    · subst hn
      simp [CacheSlot.isFilled]
    · simp [tget_tset_of_ne _ _ hn, hn, h.mem_lru n]
  · intro n
    show (tget (tset s.cache.slots f.slot _) n).lengthOk = true
    rw [tget_tset]
    split
    · simp [CacheSlot.lengthOk, hlow, hhigh]
    · exact h.lengths n
  · intro n m hn he
    exact h.held_once n m (hheldId n ▸ hn) ((hheldId n).symm.trans (he.trans (hheldId m)))
  · intro n
    show (tget (tset s.cache.slots f.slot _) n).fillingId = none
    rw [tget_tset]
    split
    · rfl
    · next hn => exact hrest n hn
  · intro n id hid
    show (tget (tset s.cache.slots f.slot _) n).heldId ≠ _
    rw [hheldId]
    exact h.queued_not_held n id hid
  · exact h.unusable_not_queued
  · intro id hu n
    show (tget (tset s.cache.slots f.slot _) n).heldId ≠ _
    rw [hheldId]
    exact h.unusable_not_held id hu n
  · intro e
    cases e

/-- Once a slot is EMPTY, what it held is held no more. -/
theorem heldId_tset_empty {v : Vector CacheSlot 32} {c n : CacheNo} {id : ProfileId}
    (h : (tget (tset v c .empty) n).heldId = some id) : n ≠ c ∧ (tget v n).heldId = some id := by
  rw [tget_tset] at h
  split at h
  · cases h
  · next hn => exact ⟨hn, h⟩

theorem CacheLaw.failed {f : Flight} (h : CacheLaw s.cache) (hf : s.cache.flight = some f) :
    CacheLaw { s.cache with
      slots := tset s.cache.slots f.slot .empty
      unusable := tset s.cache.unusable f.id true
      flight := none } := by
  obtain ⟨hfill, hrest⟩ := h.fillingId_of_flight hf
  obtain ⟨hheld, hnot, -⟩ := CacheSlot.heldId_of_fillingId hfill
  constructor
  · exact h.queue_length
  · exact h.queue_nodup
  · exact h.lru_nodup
  · intro n
    show n ∈ s.cache.lru ↔ (tget (tset s.cache.slots f.slot _) n).isFilled = true
    rw [tget_tset]
    split
    · next hn => rw [h.mem_lru, hn, hnot]; rfl
    · exact h.mem_lru n
  · intro n
    show (tget (tset s.cache.slots f.slot _) n).lengthOk = true
    rw [tget_tset]
    split
    · rfl
    · exact h.lengths n
  · exact h.held_once_tset fun _ _ hn => absurd rfl hn
  · intro n
    show (tget (tset s.cache.slots f.slot _) n).fillingId = none
    rw [tget_tset]
    split
    · rfl
    · next hn => exact hrest n hn
  · intro n id hid e
    exact h.queued_not_held n id hid (heldId_tset_empty e).2
  · intro id hu hid
    replace hu : tget (tset s.cache.unusable f.id true) id = true := hu
    rw [tget_tset] at hu
    split at hu
    · next e => exact h.queued_not_held f.slot id hid (by rw [hheld, e])
    · exact h.unusable_not_queued id hu hid
  · intro id hu n e
    obtain ⟨hn, e⟩ := heldId_tset_empty e
    replace hu : tget (tset s.cache.unusable f.id true) id = true := hu
    rw [tget_tset] at hu
    split at hu
    · next ei => exact h.heldId_ne_of_flight hf hn (by rw [e, ei])
    · exact h.unusable_not_held id hu n e
  · intro e
    cases e

theorem CacheLaw.port {c : ProfileCache} {p : PortState} (h : CacheLaw c)
    (hp : p = .lent → c.flight = none) : CacheLaw { c with port := p } := by
  refine { h with flight_not_lent := fun hf e => ?_ }
  rw [hp e] at hf
  cases hf

theorem CacheLaw.enqueued {c : ProfileCache} {id : ProfileId} (h : CacheLaw c)
    (hu : tget c.unusable id = false) (hheld : ∀ n : CacheNo, (tget c.slots n).heldId ≠ some id)
    (hq : id ∉ c.queue) (hl : c.queue.length < 16) :
    CacheLaw { c with queue := c.queue ++ [id] } where
  queue_length := by simpa using hl
  queue_nodup := by
    refine List.nodup_append.mpr ⟨h.queue_nodup, List.nodup_singleton _, fun a ha b hb e => ?_⟩
    rw [e, List.mem_singleton.mp hb] at ha
    exact hq ha
  lru_nodup := h.lru_nodup
  mem_lru := h.mem_lru
  lengths := h.lengths
  held_once := h.held_once
  filling := h.filling
  queued_not_held n i hi := by
    rcases List.mem_append.mp hi with hi | hi
    · exact h.queued_not_held n i hi
    · rw [List.mem_singleton.mp hi]
      exact hheld n
  unusable_not_queued i hi hmem := by
    rcases List.mem_append.mp hmem with hm | hm
    · exact h.unusable_not_queued i hi hm
    · rw [List.mem_singleton.mp hm, hu] at hi
      cases hi
  unusable_not_held := h.unusable_not_held
  flight_not_lent := h.flight_not_lent

theorem CacheLaw.usable {c : ProfileCache} (h : CacheLaw c) (id : ProfileId) :
    CacheLaw { c with unusable := tset c.unusable id false } := by
  have hle : ∀ i, tget (tset c.unusable id false) i = true → tget c.unusable i = true := fun i hi => by
    rw [tget_tset] at hi
    split at hi
    · cases hi
    · exact hi
  exact { h with
    unusable_not_queued := fun i hi => h.unusable_not_queued i (hle i hi)
    unusable_not_held := fun i hi => h.unusable_not_held i (hle i hi) }

theorem CacheLaw.touched {c : ProfileCache} {n : CacheNo} (h : CacheLaw c)
    (hn : (tget c.slots n).isFilled = true) :
    CacheLaw { c with lru := c.lru.filter (fun d => decide (d ≠ n)) ++ [n] } := by
  refine { h with lru_nodup := ?_, mem_lru := fun m => ?_ }
  · refine List.nodup_append.mpr ⟨h.lru_nodup.filter _, List.nodup_singleton _, ?_⟩
    intro a ha b hb e
    rw [List.mem_singleton.mp hb] at e
    simp [e] at ha
  · by_cases hm : m = n
    · subst hm
      simp [hn]
    · simp [hm, h.mem_lru m]

/-- Slots of count 0 become EMPTY and leave the LRU order. -/
theorem CacheLaw.emptied {c : ProfileCache} (h : CacheLaw c) {out : CacheNo → Bool}
    (hout : ∀ n, out n = true → (tget c.slots n).replaceable = true) {v : Vector CacheSlot 32}
    (hv : ∀ n, tget v n = if out n then .empty else tget c.slots n) :
    CacheLaw { c with slots := v, lru := c.lru.filter fun n => !out n } := by
  have hheld : ∀ n id, (tget v n).heldId = some id → (tget c.slots n).heldId = some id :=
    fun n id e => by
      rw [hv] at e
      split at e
      · cases e
      · exact e
  refine ⟨h.queue_length, h.queue_nodup, h.lru_nodup.filter _, ?_, ?_, ?_, ?_, ?_,
    h.unusable_not_queued, ?_, h.flight_not_lent⟩
  · intro n
    show n ∈ c.lru.filter _ ↔ (tget v n).isFilled = true
    rw [hv, List.mem_filter, h.mem_lru]
    cases out n <;> simp [CacheSlot.isFilled]
  · intro n
    show (tget v n).lengthOk = true
    rw [hv]
    split
    · rfl
    · exact h.lengths n
  · intro n m hn he
    obtain ⟨id, hid⟩ := Option.ne_none_iff_exists'.mp hn
    have hm : (tget c.slots m).heldId = some id := hheld m id (by rw [← hid]; exact he.symm)
    exact h.held_once n m (by rw [hheld n id hid]; exact Option.some_ne_none _)
      (by rw [hheld n id hid, hm])
  · intro n
    show (tget v n).fillingId = c.flightTo n
    rw [← h.filling, hv]
    split
    · next e => exact (CacheSlot.isFilled_of_replaceable (hout n e)).2.symm
    · rfl
  · exact fun n id hid e => h.queued_not_held n id hid (hheld n id e)
  · exact fun id hu n e => h.unusable_not_held id hu n (hheld n id e)

theorem cacheChange_keeps_cacheLaw (h : CacheChange s t) (hs : CacheLaw s.cache) :
    CacheLaw t.cache := by
  have hroom : ∀ {s : State}, queueFull s = false → s.cache.queue.length < 16 := fun hq => by
    simpa [queueCapacity] using of_decide_eq_false hq
  cases h with
  | fetch id rest c hf hp hq hc => exact hs.fetchInto hf hp hq hc
  | fill f page hf hlow hhigh => exact hs.fillSlot hf hlow hhigh
  | fail f hf => exact hs.failed hf
  | port p h => exact hs.port h
  | enqueue id hu ha hq =>
    simp only [absentProfile, queued, Bool.and_eq_true, Bool.not_eq_true', Option.isNone_iff_eq_none,
      decide_eq_false_iff_not] at ha
    obtain ⟨⟨hr, hf⟩, hm⟩ := ha
    exact hs.enqueued hu (hs.not_held_of_absent hr hf) hm (hroom hq)
  | touch c h => exact hs.touched h
  | makeUsable id => exact hs.usable id
  | retry id hu hq =>
    exact (hs.usable id).enqueued (tget_tset_self ..) (hs.unusable_not_held id hu)
      (hs.unusable_not_queued id hu) (hroom hq)
  | empty c h =>
    have := hs.emptied (out := fun n => decide (n = c)) (v := tset s.cache.slots c .empty)
      (fun n hn => by rw [of_decide_eq_true hn]; exact h)
      (fun n => by rw [tget_tset]; simp)
    simpa [emptySlot] using this
  | reclaim =>
    have := hs.emptied (out := fun n => (tget s.cache.slots n).replaceable)
      (v := s.cache.slots.map CacheSlot.reclaimed) (fun n hn => hn)
      (fun n => by rw [tget_map]; rfl)
    exact this.port (p := .owned) (fun e => nomatch e)

theorem tableChange_slots (h : TableChange s t) :
    t.cache = { s.cache with slots := t.cache.slots } ∧
      ∀ n, (tget t.cache.slots n).sameBut (tget s.cache.slots n) := by
  refine ⟨by conv_lhs => rw [h.frame], fun n => ?_⟩
  cases h with
  | restate r v => exact ⟨rfl, rfl, rfl, rfl⟩
  | retire r =>
    rw [(retire_spec r s).2.2.2.1]
    exact CacheSlot.mapCount_sameBut ..
  | fill r v =>
    show (tget (modCount _ _ s).cache.slots n).sameBut _
    rw [slots_modCount]
    exact CacheSlot.mapCount_sameBut ..

/-! ### The resets -/

theorem coldCache_law : CacheLaw coldCache := by
  constructor <;> simp [coldCache, noUnusable, CacheSlot.isFilled, CacheSlot.lengthOk,
    CacheSlot.heldId, CacheSlot.fillingId, ProfileCache.flightTo]

/-- What a FILLED slot holds a warm reset keeps, and nothing else (R51). -/
theorem CacheSlot.warm_spec (x : CacheSlot) :
    x.warm.isFilled = x.isFilled ∧ x.warm.fillingId = none ∧
      (x.lengthOk = true → x.warm.lengthOk = true) ∧
      ∀ id, x.warm.heldId = some id → x.heldId = some id := by
  cases x with
  | filled i p n => exact ⟨rfl, rfl, fun h => h, fun _ h => h⟩
  | empty => exact ⟨rfl, rfl, fun h => h, fun _ h => h⟩
  | filling i => exact ⟨rfl, rfl, fun h => h, fun _ h => (nomatch h)⟩

theorem CacheLaw.warm {c : ProfileCache} (h : CacheLaw c) : CacheLaw c.warm := by
  have hheld : ∀ n id, (tget c.warm.slots n).heldId = some id → (tget c.slots n).heldId = some id :=
    fun n id e => by
      rw [ProfileCache.warm, tget_map] at e
      exact (CacheSlot.warm_spec _).2.2.2 id e
  constructor
  · simp [ProfileCache.warm]
  · exact List.nodup_nil
  · exact h.lru_nodup
  · intro n
    rw [ProfileCache.warm, tget_map, (CacheSlot.warm_spec _).1]
    exact h.mem_lru n
  · intro n
    rw [ProfileCache.warm, tget_map]
    exact (CacheSlot.warm_spec _).2.2.1 (h.lengths n)
  · intro n m hn he
    obtain ⟨id, hid⟩ := Option.ne_none_iff_exists'.mp hn
    have hm := hheld m id (he ▸ hid)
    exact h.held_once n m (by rw [hheld n id hid]; exact Option.some_ne_none _)
      (by rw [hheld n id hid, hm])
  · intro n
    rw [ProfileCache.warm, tget_map, (CacheSlot.warm_spec _).2.1]
    rfl
  · intro n id hid
    cases hid
  · intro id hu
    simp [ProfileCache.warm, noUnusable] at hu
  · intro id hu
    simp [ProfileCache.warm, noUnusable] at hu
  · intro e
    cases e

theorem change_keeps_profileCacheLaw {k : Kind} (hk : k ≠ .boundary) (h : Change k s t)
    (hs : ProfileCacheLaw s) : ProfileCacheLaw t := by
  rw [profileCacheLaw_iff] at hs ⊢
  rcases h.memory_cases hk with h | h | ⟨-, h⟩ | ⟨-, h | h⟩
  · obtain ⟨hc, hslots⟩ := tableChange_slots h
    rw [hc]
    exact hs.of_sameBut hslots
  · exact cacheChange_keeps_cacheLaw h hs
  · rw [h]
    exact hs
  · rw [h]
    exact hs.warm
  · rw [h]
    exact coldCache_law

/-! ### Reference counts (R35) -/

/-- A FILLED slot's count is the number of the live records that name its profile. -/
theorem referenceCountLaw_iff : ReferenceCountLaw s ↔
    ∀ (c : CacheNo) (id : ProfileId) (p : List Int) (n : Nat),
      tget s.cache.slots c = .filled id p n → n = liveNaming id s := by
  constructor
  · intro h c id p n hc
    simpa [CacheSlot.countOk, hc] using h c
  · intro h c
    rcases hc : tget s.cache.slots c with _ | id | ⟨id, p, n⟩
    · rfl
    · rfl
    · simpa [CacheSlot.countOk] using h c id p n hc

/-- The test by which a record names a profile. -/
def naming (id : ProfileId) (v : SourceRecord) : Bool := isLive v && decide (v.profile = id)

theorem naming_of_live {id : ProfileId} {v : SourceRecord} (h : isLive v = true) :
    naming id v = decide (v.profile = id) := by
  simp [naming, h]

theorem naming_of_free {id : ProfileId} {v : SourceRecord} (h : isLive v = false) :
    naming id v = false := by
  simp [naming, h]

/-- How many live records name a profile once one record has been replaced. -/
theorem liveNaming_of_replaced {r : RecordNo} {v : SourceRecord} (id : ProfileId)
    (h : t.table.records = tset s.table.records r v) :
    liveNaming id t + (naming id (getRecord r s)).toNat =
      liveNaming id s + (naming id v).toNat := by
  show (indicesWhere t.table.records (naming id)).length + _ =
    (indicesWhere s.table.records (naming id)).length + _
  rw [h]
  exact length_indicesWhere_tset _ _ _ _

theorem filled_of_mapCount {x : CacheSlot} {id i : ProfileId} {f : Nat → Nat} {p : List Int}
    {n : Nat} (h : x.mapCount id f = .filled i p n) :
    ∃ m, x = .filled i p m ∧ n = if i = id then f m else m := by
  cases x with
  | filled j q m =>
    obtain ⟨rfl, rfl, rfl⟩ := CacheSlot.filled.inj h
    exact ⟨m, rfl, rfl⟩
  | empty => cases h
  | filling j => cases h

theorem tableChange_keeps_referenceCountLaw (h : TableChange s t) (hs : ReferenceCountLaw s) :
    ReferenceCountLaw t := by
  rw [referenceCountLaw_iff] at hs ⊢
  intro c id p n hc
  cases h with
  | restate r v hr hv hslot htag hprofile =>
    have := liveNaming_of_replaced (s := s) (t := setRecord r v s) id rfl
    rw [naming_of_live hr, naming_of_live hv, hprofile] at this
    have := hs c id p n hc
    omega
  | retire r hr =>
    have hcount := liveNaming_of_replaced (s := s) (t := Machine.retire r s) id rfl
    rw [naming_of_live hr, naming_of_free (v := freeRecord) rfl] at hcount
    rw [(retire_spec r s).2.2.2.1] at hc
    obtain ⟨m, hm, hn⟩ := filled_of_mapCount hc
    have hold := hs c id p m hm
    by_cases he : id = (getRecord r s).profile
    · simp [he] at hcount hn
      rw [← he] at hcount
      omega
    · simp [he, Ne.symm he] at hcount hn
      omega
  | fill r v hr hv htag hlive hpresent =>
    have hcount := liveNaming_of_replaced (s := s) (t := modLive v.slot (· + 1)
      (setRecord r v (modCount v.profile (· + 1) s))) id rfl
    rw [naming_of_free hr, naming_of_live hv] at hcount
    replace hc : tget (modCount v.profile (· + 1) s).cache.slots c = .filled id p n := hc
    rw [slots_modCount] at hc
    obtain ⟨m, hm, hn⟩ := filled_of_mapCount hc
    have hold := hs c id p m hm
    by_cases he : id = v.profile
    · subst he
      simp at hcount hn
      omega
    · simp [he, Ne.symm he] at hcount hn
      omega

/-- A slot that a change of the cache leaves FILLED was FILLED so before, or its count has just been
taken from the table (R40). -/
theorem cacheChange_filled (h : CacheChange s t) {c : CacheNo} {id : ProfileId} {p : List Int}
    {n : Nat} (hc : tget t.cache.slots c = .filled id p n) :
    tget s.cache.slots c = .filled id p n ∨ n = liveNaming id s := by
  have hother : ∀ (d : CacheNo) (v : CacheSlot),
      tget (tset s.cache.slots d v) c = .filled id p n → v ≠ .filled id p n →
      tget s.cache.slots c = .filled id p n := fun d v hc hv => by
    rw [tget_tset] at hc
    split at hc
    · exact absurd hc hv
    · exact hc
  cases h with
  | fetch i rest d _ _ _ _ => exact .inl (hother d _ hc (by simp))
  | fill f page _ _ _ =>
    replace hc : tget (tset s.cache.slots f.slot _) c = .filled id p n := hc
    rw [tget_tset] at hc
    split at hc
    · obtain ⟨rfl, rfl, rfl⟩ := CacheSlot.filled.inj hc
      exact .inr rfl
    · exact .inl hc
  | fail f _ => exact .inl (hother f.slot _ hc (by simp))
  | empty d _ => exact .inl (hother d _ hc (by simp))
  | port | enqueue | touch | makeUsable | retry => exact .inl hc
  | reclaim =>
    replace hc : tget (s.cache.slots.map CacheSlot.reclaimed) c = .filled id p n := hc
    rw [tget_map, CacheSlot.reclaimed] at hc
    split at hc
    · cases hc
    · exact .inl hc

theorem change_keeps_referenceCountLaw {k : Kind} (hk : k ≠ .boundary) (h : Change k s t)
    (hs : ReferenceCountLaw s) : ReferenceCountLaw t := by
  have hnone : ∀ id, t.table = emptyTable → liveNaming id t = 0 := fun id ht => by
    simp [liveNaming, ht, emptyTable, indicesWhere, isLive, freeRecord]
  rcases h.memory_cases hk with h | h | ⟨ht, hc⟩ | ⟨ht, hc | hc⟩
  · exact tableChange_keeps_referenceCountLaw h hs
  · rw [referenceCountLaw_iff] at hs ⊢
    intro c id p n hc
    have htable : t.table = s.table := by rw [h.frame]
    have hsame : liveNaming id t = liveNaming id s := by rw [liveNaming, liveNaming, htable]
    rw [hsame]
    rcases cacheChange_filled h hc with hc | hc
    · exact hs c id p n hc
    · exact hc
  · rw [referenceCountLaw_iff] at hs ⊢
    intro c id p n h
    rw [hc] at h
    rw [hs c id p n h, liveNaming, liveNaming, ht]
  · rw [referenceCountLaw_iff]
    intro c id p n h
    rw [hc, ProfileCache.warm, tget_map] at h
    rw [hnone id ht]
    rcases hx : tget s.cache.slots c with _ | i | ⟨i, q, m⟩ <;> rw [hx] at h <;> cases h
    rfl
  · rw [referenceCountLaw_iff]
    intro c id p n h
    rw [hc, coldCache, tget_replicate] at h
    cases h

/-- Settles O6: each change of table or cache keeps the laws, and no other change reaches them. -/
theorem stepsKeepTheProfileCacheLaws : Obligations.StepsKeepTheProfileCacheLaws := by
  unfold Obligations.StepsKeepTheProfileCacheLaws
  exact ⟨fun s t hs h => step_keeps (P := ProfileCacheLaw) (fun _ _ h => h)
      (fun c s t h => exec_keeps (fun k s t => change_keeps_profileCacheLaw) h) h hs,
    fun s t hs h => step_keeps (P := ReferenceCountLaw) (fun _ _ h => h)
      (fun c s t h => exec_keeps (fun k s t => change_keeps_referenceCountLaw) h) h hs⟩

end Sys2Proof.Machine
end

section
/-! PROOF. The law of the Coupling Store (R53, R54): both banks, and the judgement of a writing
command good until its grant. -/

namespace Sys2Proof.Machine

variable {s t : State}

/-! ### Banks -/

/-- A bank's total is the sum of the lengths of its lists over the sources. -/
theorem total_eq (b : Bank) : b.total = ∑ x : Slot, (tget b.lists x).length := by
  rw [Bank.total, toList_eq_map_tget, Fin.sum_univ_def, List.map_map]
  rfl

theorem length_le_total (b : Bank) (x : Slot) : (tget b.lists x).length ≤ b.total := by
  rw [total_eq]
  exact Finset.single_le_sum (f := fun x => (tget b.lists x).length) (fun _ _ => Nat.zero_le _)
    (Finset.mem_univ x)

/-- The total of a bank in which one list has been replaced. -/
theorem total_replaceList (b : Bank) (source : Slot) (l : List Entry) :
    (b.replaceList source l).total + (tget b.lists source).length = b.total + l.length := by
  have hrest : ∀ v : Vector (List Entry) 96, ∑ x : Slot, (tget v x).length =
      (tget v source).length + ∑ x ∈ Finset.univ.erase source, (tget v x).length := fun v =>
    (Finset.add_sum_erase Finset.univ (fun x => (tget v x).length) (Finset.mem_univ source)).symm
  have hsame : ∑ x ∈ Finset.univ.erase source, (tget (tset b.lists source l) x).length =
      ∑ x ∈ Finset.univ.erase source, (tget b.lists x).length :=
    Finset.sum_congr rfl fun x hx => by rw [tget_tset_of_ne _ _ (Finset.ne_of_mem_erase hx)]
  rw [total_eq, total_eq]
  show ∑ x : Slot, (tget (tset b.lists source l) x).length + _ = _
  rw [hrest, hrest, hsame, tget_tset_self]
  omega

theorem emptyBank_law : BankLaw emptyBank := by
  refine ⟨fun source => ?_, ?_, by simp [emptyBank]⟩
  · simp [emptyBank, ListLaw]
  · simp [total_eq, emptyBank]

/-- A lawful list put in place of another in a bank with room for it. -/
theorem bankLaw_replaceList {b : Bank} {source : Slot} {l : List Entry} (hb : BankLaw b)
    (hl : ListLaw source l) (hroom : b.pool - (tget b.lists source).length + l.length ≤ 1536) :
    BankLaw (b.replaceList source l) := by
  obtain ⟨hlists, hpool, -⟩ := hb
  refine ⟨fun x => ?_, ?_, hroom⟩
  · show ListLaw x (tget (tset b.lists source l) x)
    rw [tget_tset]
    split
    · next e => exact e ▸ hl
    · exact hlists x
  · have htotal := total_replaceList b source l
    have hle := length_le_total b source
    show b.pool - (tget b.lists source).length + l.length = _
    omega

/-- A gain set changes no target and no length. -/
theorem target_setGain (l : List Entry) (u : Target) (g : Int) :
    (setGain l u g).map (·.target) = l.map (·.target) := by
  rw [setGain, List.map_map]
  exact List.map_congr_left fun e _ => by simp only [Function.comp]; split <;> rfl

theorem length_setGain (l : List Entry) (u : Target) (g : Int) :
    (setGain l u g).length = l.length := by
  simp [setGain]

theorem listLaw_of_targets {source : Slot} {l m : List Entry}
    (h : m.map (·.target) = l.map (·.target)) (hl : ListLaw source l) : ListLaw source m := by
  obtain ⟨hlen, hsorted, hself⟩ := hl
  refine ⟨?_, h ▸ hsorted, fun e he => ?_⟩
  · have := congrArg List.length h
    simp only [List.length_map] at this
    omega
  · have hmem : e.target ∈ l.map (·.target) := h ▸ List.mem_map_of_mem he
    obtain ⟨e', he', ht⟩ := List.mem_map.mp hmem
    rw [← ht]
    exact hself e' he'

/-- Two banks whose lists have the same targets, and the same pool count. -/
def SameTargets (b c : Bank) : Prop :=
  (∀ x : Slot, (tget b.lists x).map (·.target) = (tget c.lists x).map (·.target)) ∧ b.pool = c.pool

theorem SameTargets.refl (b : Bank) : SameTargets b b := ⟨fun _ => rfl, rfl⟩

theorem SameTargets.length {b c : Bank} (h : SameTargets b c) (x : Slot) :
    (tget b.lists x).length = (tget c.lists x).length := by
  simpa using congrArg List.length (h.1 x)

theorem bankLaw_of_sameTargets {b c : Bank} (h : SameTargets b c) (hc : BankLaw c) : BankLaw b := by
  obtain ⟨hlists, hpool, hle⟩ := hc
  refine ⟨fun x => listLaw_of_targets (h.1 x) (hlists x), ?_, h.2 ▸ hle⟩
  rw [h.2, hpool, total_eq, total_eq]
  exact Finset.sum_congr rfl fun x _ => (h.length x).symm

/-- There are two banks. -/
theorem eq_other_of_ne {n m : BankName} (h : n ≠ m) : n = m.other := by
  cases n <;> cases m <;> simp [BankName.other] at h ⊢

/-- A gain update changes no list's targets, no pool count and no marker (R66). -/
theorem applyUpdate_sameTargets (c : CouplingStore) (bank : BankName) (u : Target) (g : GainUpdate) :
    (∀ n, SameTargets ((applyUpdate c bank u g).bank n) (c.bank n)) ∧
      (applyUpdate c bank u g).active = c.active ∧
      (applyUpdate c bank u g).swapPending = c.swapPending := by
  rcases applyUpdate_cases c bank u g with ⟨-, -, h⟩ | ⟨-, -, -, h⟩ | ⟨e, -, -, -, h⟩
  · rw [h]
    exact ⟨fun _ => .refl _, rfl, rfl⟩
  · rw [h]
    exact ⟨fun _ => .refl _, rfl, rfl⟩
  · rw [h, active_setBank, swapPending_setBank]
    refine ⟨fun n => ?_, rfl, rfl⟩
    have hwritten : SameTargets ⟨tset (c.bank bank).lists g.source
        (setGain (tget (c.bank bank).lists g.source) u (g.newGain e.gain)), (c.bank bank).pool⟩
        (c.bank bank) := by
      refine ⟨fun x => ?_, rfl⟩
      show (tget (tset (c.bank bank).lists g.source _) x : List Entry).map (·.target) = _
      rw [tget_tset]
      split
      · next hx => rw [target_setGain, hx]
      · rfl
    by_cases hn : n = bank
    · rw [hn, bank_setBank_self]
      exact hwritten
    · rw [eq_other_of_ne hn, bank_setBank_other]
      exact .refl _

/-! ### The law of the store, with the command in execution -/

/-- The law of the Coupling Store, of a store, the command in execution and the transaction. -/
def StoreLaw (c : CouplingStore) (e : Option Executing) (tr : Option Transaction) : Prop :=
  (∀ n, BankLaw (c.bank n)) ∧
  (match e with
    | some (.listWrite source l _) => c.swapPending = false ∧ ListLaw source l ∧
        poolExceeded (c.bank c.staging) source l.length = false
    | some .captureEmpty => c.swapPending = false
    | some (.captureCopy next) => c.swapPending = false ∧ ∀ source : Slot,
        (tget (c.bank c.staging).lists source).length =
          if source < next then (tget (c.bank c.active).lists source).length else 0
    | _ => True) ∧
  (e.isSome = true → ∀ x ∈ tr, x.refused = true)

theorem couplingStoreLaw_iff :
    CouplingStoreLaw s ↔ StoreLaw s.store s.port.executing s.port.transaction := by
  constructor
  · rintro ⟨ha, hb, he, ht⟩
    exact ⟨fun n => by cases n; exacts [ha, hb], he, ht⟩
  · rintro ⟨hbank, he, ht⟩
    exact ⟨hbank .a, hbank .b, he, ht⟩

/-- A frame is taken only where no command is in execution (R165). -/
theorem executing_none_of_not_refused {c : CouplingStore}
    (h : StoreLaw c s.port.executing s.port.transaction) (hf : frameRefused s = false) :
    s.port.executing = none := by
  obtain ⟨-, -, htrans⟩ := h
  rcases he : s.port.executing with _ | e
  · rfl
  · unfold frameRefused at hf
    split at hf
    · next x hx =>
      rw [htrans (by rw [he]; rfl) x hx] at hf
      cases hf
    · rw [he] at hf
      simp at hf

theorem storeLaw_idle {c : CouplingStore} (h : ∀ n, BankLaw (c.bank n)) (tr : Option Transaction) :
    StoreLaw c none tr :=
  ⟨h, trivial, fun e => nomatch e⟩

/-- The staging bank with one list written: both banks stay lawful. -/
theorem bankLaw_setStaging {c : CouplingStore} {b : Bank} (h : ∀ n, BankLaw (c.bank n))
    (hb : BankLaw b) (n : BankName) : BankLaw ((c.setBank c.staging b).bank n) := by
  by_cases hn : n = c.staging
  · rw [hn, bank_setBank_self]
    exact hb
  · rw [eq_other_of_ne hn, bank_setBank_other]
    exact h _

/-- While a CAPTURE copies, the staging bank has room for each list of the active one. -/
theorem captureCopy_room {c : CouplingStore} {source : Slot} (hbank : ∀ n, BankLaw (c.bank n))
    (hlen : ∀ x : Slot, (tget (c.bank c.staging).lists x).length =
      if x < source then (tget (c.bank c.active).lists x).length else 0) :
    BankLaw ((c.bank c.staging).replaceList source (tget (c.bank c.active).lists source)) := by
  obtain ⟨hlists, hpoolA, hleA⟩ := hbank c.active
  obtain ⟨-, hpool, -⟩ := hbank c.staging
  refine bankLaw_replaceList (hbank _) (hlists source) ?_
  have hempty : (tget (c.bank c.staging).lists source).length = 0 := by
    rw [hlen, if_neg (lt_irrefl _)]
  have htotal := total_replaceList (c.bank c.staging) source (tget (c.bank c.active).lists source)
  have hle : ((c.bank c.staging).replaceList source
      (tget (c.bank c.active).lists source)).total ≤ (c.bank c.active).total := by
    rw [total_eq, total_eq]
    refine Finset.sum_le_sum fun x _ => ?_
    show (tget (tset (c.bank c.staging).lists source _) x : List Entry).length ≤ _
    rw [tget_tset]
    split
    · next hx => rw [hx]
    · rw [hlen]
      split
      · exact le_refl _
      · exact Nat.zero_le _
  omega

theorem storeChange_keeps_storeLaw (h : StoreChange s t)
    (hs : StoreLaw s.store s.port.executing s.port.transaction) :
    StoreLaw t.store t.port.executing t.port.transaction := by
  have hbank := hs.1
  cases h with
  | pending b hf =>
    show StoreLaw _ s.port.executing none
    rw [executing_none_of_not_refused hs hf]
    exact storeLaw_idle (fun n => by cases n; exacts [hbank .a, hbank .b]) _
  | begin e hf he =>
    refine ⟨hbank, ?_, fun _ x hx => nomatch hx⟩
    cases e with
    | listWrite source l n => exact he
    | captureEmpty => exact he
    | captureCopy _ => exact he.elim
    | listRead | sourceList => trivial
  | written source l n r he =>
    obtain ⟨-, hjudged, -⟩ := hs
    rw [he] at hjudged
    obtain ⟨-, hl, hroom⟩ := hjudged
    refine storeLaw_idle (bankLaw_setStaging hbank (bankLaw_replaceList (hbank _) hl
      (Nat.not_lt.mp (of_decide_eq_false hroom)))) _
  | answered r => exact storeLaw_idle hbank _
  | emptied he =>
    obtain ⟨-, hjudged, htrans⟩ := hs
    rw [he] at hjudged htrans
    refine ⟨bankLaw_setStaging hbank emptyBank_law, ⟨?_, fun source => ?_⟩, fun _ => htrans rfl⟩
    · show (s.store.setBank _ _).swapPending = false
      rw [swapPending_setBank]
      exact hjudged
    · show (tget ((s.store.setBank s.store.staging emptyBank).bank
        (s.store.setBank s.store.staging emptyBank).active.other).lists source).length = _
      rw [active_setBank, ← CouplingStore.staging, bank_setBank_self]
      simp [emptyBank]
  | copied source next he hn =>
    obtain ⟨-, hjudged, htrans⟩ := hs
    rw [he] at hjudged htrans
    obtain ⟨hpending, hlen⟩ := hjudged
    refine ⟨bankLaw_setStaging hbank (captureCopy_room hbank hlen), ⟨?_, fun x => ?_⟩,
      fun _ => htrans rfl⟩
    · show (s.store.setBank _ _).swapPending = false
      rw [swapPending_setBank]
      exact hpending
    · let b := (s.store.bank s.store.staging).replaceList source
        (tget (s.store.bank s.store.active).lists source)
      show (tget ((s.store.setBank s.store.staging b).bank
          (s.store.setBank s.store.staging b).active.other).lists x).length =
        if x < next then (tget ((s.store.setBank s.store.staging b).bank
          (s.store.setBank s.store.staging b).active).lists x).length else 0
      have hactive : (s.store.setBank s.store.staging b).bank s.store.active =
          s.store.bank s.store.active := by
        have := bank_setBank_other s.store s.store.staging b
        rwa [CouplingStore.staging, other_other] at this
      rw [active_setBank, ← CouplingStore.staging, bank_setBank_self, hactive]
      show (tget (tset (s.store.bank s.store.staging).lists source _) x : List Entry).length = _
      rw [tget_tset]
      by_cases hx : x = source
      · rw [if_pos hx, if_pos (by rw [hx, Fin.lt_def]; omega), hx]
      · rw [if_neg hx, hlen]
        have : x < next ↔ x < source := by
          have hval : x.val ≠ source.val := fun e => hx (Fin.ext e)
          rw [Fin.lt_def, Fin.lt_def]
          omega
        simp only [this]
  | captured source r he =>
    obtain ⟨-, hjudged, -⟩ := hs
    rw [he] at hjudged
    exact storeLaw_idle (bankLaw_setStaging hbank (captureCopy_room hbank hjudged.2)) _
  | swap hp =>
    obtain ⟨-, hjudged, htrans⟩ := hs
    refine ⟨fun n => by cases n; exacts [hbank .a, hbank .b], ?_, htrans⟩
    show (match s.port.executing with
      | some (.listWrite source l _) => _
      | some .captureEmpty => _
      | some (.captureCopy next) => _
      | _ => True)
    rcases he : s.port.executing with _ | (_ | _ | _ | _ | _) <;> rw [he] at hjudged
    · trivial
    · rw [hp] at hjudged; exact nomatch hjudged.1
    · trivial
    · rw [hp] at hjudged; exact nomatch hjudged
    · rw [hp] at hjudged; exact nomatch hjudged.1
    · trivial
  | update bank u g =>
    obtain ⟨-, hjudged, htrans⟩ := hs
    obtain ⟨hsame, hactive, hpending⟩ := applyUpdate_sameTargets s.store bank u g
    have hstaging : (applyUpdate s.store bank u g).staging = s.store.staging := by
      rw [CouplingStore.staging, hactive]; rfl
    refine ⟨fun n => bankLaw_of_sameTargets (hsame n) (hbank n), ?_, htrans⟩
    show (match s.port.executing with
      | some (.listWrite source l _) => _
      | some .captureEmpty => _
      | some (.captureCopy next) => _
      | _ => True)
    rcases he : s.port.executing with _ | (⟨source, l, n⟩ | _ | _ | next | _) <;> rw [he] at hjudged
    · trivial
    · obtain ⟨hp, hl, hroom⟩ := hjudged
      refine ⟨hpending.trans hp, hl, ?_⟩
      show poolExceeded ((applyUpdate s.store bank u g).bank
        (applyUpdate s.store bank u g).staging) source l.length = false
      rw [poolExceeded, hstaging, (hsame _).2, (hsame _).length]
      exact hroom
    · trivial
    · exact hpending.trans hjudged
    · obtain ⟨hp, hlen⟩ := hjudged
      refine ⟨hpending.trans hp, fun source => ?_⟩
      show (tget ((applyUpdate s.store bank u g).bank
          (applyUpdate s.store bank u g).staging).lists source).length =
        if source < next then (tget ((applyUpdate s.store bank u g).bank
          (applyUpdate s.store bank u g).active).lists source).length else 0
      rw [hstaging, hactive, (hsame _).length, (hsame _).length]
      exact hlen source
    · trivial

/-- A small change makes a change of the store or of the port, or leaves what the law speaks of, or
leaves the part with no command in execution. -/
theorem Change.store_cases {k : Kind} (hk : k ≠ .boundary) (h : Change k s t) :
    StoreChange s t ∨ PortChange s t ∨
      (t.store = s.store ∧ t.port.executing = s.port.executing ∧
        t.port.transaction = s.port.transaction) ∨
      (t.port.executing = none ∧ ∀ n, t.store.bank n = s.store.bank n ∨
        t.store.bank n = emptyBank) := by
  cases h with
  | store h => exact .inl h
  | port h => exact .inr (.inl h)
  | table h => rw [h.frame]; exact .inr (.inr (.inl ⟨rfl, rfl, rfl⟩))
  | cache h => rw [h.frame]; exact .inr (.inr (.inl ⟨rfl, rfl, rfl⟩))
  | prediction h => rw [h.frame]; exact .inr (.inr (.inl ⟨rfl, rfl, rfl⟩))
  | adapt h => rw [h.frame]; exact .inr (.inr (.inl ⟨rfl, rfl, rfl⟩))
  | station h => rw [h.frame]; exact .inr (.inr (.inl ⟨rfl, rfl, rfl⟩))
  | suppression h => rw [h.frame]; exact .inr (.inr (.inl ⟨rfl, rfl, rfl⟩))
  | link h => rw [h.frame]; exact .inr (.inr (.inl ⟨rfl, rfl, rfl⟩))
  | time h => rw [h.frame]; exact .inr (.inr (.inl ⟨rfl, rfl, rfl⟩))
  | window h => rw [h.frame]; exact .inr (.inr (.inl ⟨rfl, rfl, rfl⟩))
  | frame h => rw [h.frame]; exact .inr (.inr (.inl ⟨rfl, rfl, rfl⟩))
  | sweep h => rw [h.frame]; exact .inr (.inr (.inl ⟨rfl, rfl, rfl⟩))
  | opened | taken | settings | flags => exact .inr (.inr (.inl ⟨rfl, rfl, rfl⟩))
  | warm => exact .inr (.inr (.inr ⟨rfl, fun n => .inl (by cases n <;> rfl)⟩))
  | cold => exact .inr (.inr (.inr ⟨rfl, fun n => .inr (by cases n <;> rfl)⟩))
  | boundary => exact absurd rfl hk

theorem portChange_keeps_storeLaw (h : PortChange s t)
    (hs : StoreLaw s.store s.port.executing s.port.transaction) :
    StoreLaw t.store t.port.executing t.port.transaction := by
  obtain ⟨hbank, hjudged, htrans⟩ := hs
  cases h with
  | endTransaction => exact ⟨hbank, hjudged, fun _ x hx => nomatch hx⟩
  | start =>
    refine ⟨hbank, hjudged, fun he x hx => ?_⟩
    obtain rfl := Option.some.inj hx
    exact he
  | respond | untaken | mask | latch => exact ⟨hbank, hjudged, htrans⟩

theorem change_keeps_couplingStoreLaw {k : Kind} (hk : k ≠ .boundary) (h : Change k s t)
    (hs : CouplingStoreLaw s) : CouplingStoreLaw t := by
  rw [couplingStoreLaw_iff] at hs ⊢
  rcases h.store_cases hk with h | h | ⟨hst, he, ht⟩ | ⟨he, hbank⟩
  · exact storeChange_keeps_storeLaw h hs
  · exact portChange_keeps_storeLaw h hs
  · rw [hst, he, ht]
    exact hs
  · rw [he]
    refine storeLaw_idle (fun n => ?_) _
    rcases hbank n with h | h
    · rw [h]
      exact hs.1 n
    · rw [h]
      exact emptyBank_law

/-- Settles O7: each change of the store keeps both banks lawful and the judgement good, since a
frame is taken only where no command is in execution. -/
theorem stepsKeepTheCouplingStoreLaw : Obligations.StepsKeepTheCouplingStoreLaw := by
  unfold Obligations.StepsKeepTheCouplingStoreLaw
  exact fun s t hs h => step_keeps (P := CouplingStoreLaw) (fun _ _ h => h)
    (fun c s t h => exec_keeps (fun k s t => change_keeps_couplingStoreLaw) h) h hs

end Sys2Proof.Machine
end

section
/-! PROOF. The laws of the engines, the stations' filters, suppression, settings, flags and presence:
each a case analysis over the small changes of its own block. -/

namespace Sys2Proof.Machine

variable {s t : State}

/-! ### What a command keeps, by the kinds of its changes -/

/-- What each small change that a command may be made of keeps, the command keeps. -/
theorem exec_keeps_of_kinds {P : State → Prop} {c : Instr}
    (hP : ∀ (k : Kind) (s t : State), k ∈ kindsOf c ∨ k ∈ [Kind.plain, .frame, .taken] →
      k ≠ .boundary → Change k s t → P s → P t)
    (h : exec c s = .next t) (hs : P s) : P t := by
  refine (exec_moves c h).keeps (fun k hk s t hc hs => ?_) hs
  by_cases hb : k = .boundary
  · refine (boundary_moves hb hc).keeps (fun k' hk' s t hc hs => hP k' s t ?_ ?_ hc hs) hs
    · exact .inr (by simpa [or_comm, or_assoc, or_left_comm] using hk')
    · rintro rfl
      simp at hk'
  · exact hP k s t (.inl hk) hb hc hs

/-! ### The Prediction Engine's rings (R81, R88, R91) -/

/-- The law of the rings, of an engine. -/
def EngineLaw (e : PredictionEngine) : Prop :=
  (∀ u : Target, (tget e.rings u).length ≤ 3 ∧
    ∀ r ∈ tget e.rings u, r.contributors.length ≤ 16 ∧
      (96 ≤ u.val → r.suppressed = false ∧ r.parked = false)) ∧
  (∀ x ∈ e.evaluations, 96 ≤ x.target.val → x.snap.slotPart = none) ∧
  (e.evaluations.map (·.target)).Pairwise (· < ·)

theorem emptyPrediction_law : EngineLaw emptyPrediction := by
  simp [EngineLaw, emptyPrediction]

theorem slotOfTarget_none {u : Target} (h : 96 ≤ u.val) : slotOfTarget u = none :=
  below_eq_none.mpr h

/-- The evaluations after one more has been put among them. -/
theorem mem_insertEvaluation {e x : Evaluation} {l : List Evaluation}
    (h : x ∈ insertEvaluation e l) : x = e ∨ x ∈ l := by
  induction l with
  | nil => exact .inl (List.mem_singleton.mp h)
  | cons y l ih =>
    unfold insertEvaluation at h
    split at h
    · exact List.mem_cons.mp h
    · split at h
      · rcases List.mem_cons.mp h with h | h
        · exact .inl h
        · exact .inr (List.mem_cons_of_mem _ h)
      · rcases List.mem_cons.mp h with h | h
        · exact .inr (h ▸ List.mem_cons_self)
        · rcases ih h with h | h
          · exact .inl h
          · exact .inr (List.mem_cons_of_mem _ h)

theorem insertEvaluation_sorted {e : Evaluation} {l : List Evaluation}
    (h : (l.map (·.target)).Pairwise (· < ·)) :
    ((insertEvaluation e l).map (·.target)).Pairwise (· < ·) := by
  rw [List.pairwise_map] at h ⊢
  induction l with
  | nil => exact List.pairwise_singleton _ _
  | cons y l ih =>
    obtain ⟨hy, hl⟩ := List.pairwise_cons.mp h
    unfold insertEvaluation
    split
    · next he =>
      refine List.pairwise_cons.mpr ⟨fun x hx => ?_, h⟩
      rcases List.mem_cons.mp hx with rfl | hx
      · exact he
      · exact lt_trans he (hy x hx)
    · next hne =>
      split
      · next he => exact List.pairwise_cons.mpr ⟨fun x hx => he ▸ hy x hx, hl⟩
      · next hne' =>
        refine List.pairwise_cons.mpr ⟨fun x hx => ?_, ih hl⟩
        rcases mem_insertEvaluation hx with rfl | hx
        · exact lt_of_le_of_ne (not_lt.mp hne) (Ne.symm hne')
        · exact hy x hx

/-- Reads change neither target nor snapshot. -/
theorem grantRead_spec (c : CouplingStore) (l : List Evaluation) :
    (grantRead c l).map (fun e => (e.target, e.snap)) = l.map fun e => (e.target, e.snap) := by
  induction l with
  | nil => rfl
  | cons e l ih =>
    unfold grantRead
    split
    · rfl
    · rw [List.map_cons, List.map_cons, ih]

theorem readAll_spec (c : CouplingStore) (e : Evaluation) :
    (e.readAll c).target = e.target ∧ (e.readAll c).snap = e.snap ∧ (e.readAll c).frame = e.frame := by
  unfold Evaluation.readAll
  split <;> exact ⟨rfl, rfl, rfl⟩

/-- Evaluations with the targets and snapshots of a lawful list are lawful. -/
theorem engineLaw_of_same {e : PredictionEngine} {l : List Evaluation} {g : Bool} (h : EngineLaw e)
    (hl : l.map (fun x => (x.target, x.snap)) = e.evaluations.map fun x => (x.target, x.snap)) :
    EngineLaw { e with evaluations := l, gap := g } := by
  obtain ⟨hrings, hslot, hsorted⟩ := h
  refine ⟨hrings, fun x hx ht => ?_, ?_⟩
  · have hmem : (x.target, x.snap) ∈ e.evaluations.map fun x => (x.target, x.snap) :=
      hl ▸ List.mem_map_of_mem hx
    obtain ⟨y, hy, hxy⟩ := List.mem_map.mp hmem
    obtain ⟨htarget, hsnap⟩ := Prod.mk.inj hxy
    rw [← hsnap]
    exact hslot y hy (htarget ▸ ht)
  · have := congrArg (List.map Prod.fst) hl
    simp only [List.map_map, Function.comp_def] at this
    show (l.map fun x => x.target).Pairwise (· < ·)
    rw [this]
    exact hsorted

/-- Evaluations left out of a lawful list leave it lawful. -/
theorem engineLaw_filter {e : PredictionEngine} {p : Evaluation → Bool} (h : EngineLaw e) :
    EngineLaw { e with evaluations := e.evaluations.filter p } := by
  obtain ⟨hrings, hslot, hsorted⟩ := h
  refine ⟨hrings, fun x hx => hslot x (List.mem_of_mem_filter hx), ?_⟩
  rw [List.pairwise_map] at hsorted ⊢
  exact hsorted.filter _

/-- A ring replaced by a lawful one. -/
theorem engineLaw_ring {e : PredictionEngine} {u : Target} {l : List EvalRecord} (h : EngineLaw e)
    (hlen : l.length ≤ 3) (hl : ∀ r ∈ l, r.contributors.length ≤ 16 ∧
      (96 ≤ u.val → r.suppressed = false ∧ r.parked = false)) :
    EngineLaw { e with rings := tset e.rings u l } := by
  obtain ⟨hrings, hslot, hsorted⟩ := h
  refine ⟨fun v => ?_, hslot, hsorted⟩
  show (tget (tset e.rings u l) v).length ≤ 3 ∧ ∀ r ∈ tget (tset e.rings u l) v, _
  rw [tget_tset]
  split
  · next hv => exact ⟨hlen, hv ▸ hl⟩
  · exact hrings v

theorem length_pushRing {r : EvalRecord} {l : List EvalRecord} (h : l.length ≤ 3) :
    (pushRing r l).length ≤ 3 := by
  unfold pushRing
  split
  · simp
    omega
  · simp
    omega

theorem mem_pushRing {r x : EvalRecord} {l : List EvalRecord} (h : x ∈ pushRing r l) :
    x = r ∨ x ∈ l := by
  unfold pushRing at h
  split at h
  · rcases List.mem_append.mp h with h | h
    · exact .inr h
    · exact .inl (List.mem_singleton.mp h)
  · rcases List.mem_append.mp h with h | h
    · exact .inr (List.mem_of_mem_tail h)
    · exact .inl (List.mem_singleton.mp h)

/-- An evaluation's end changes the engine alone by its record and its leaving (R91). -/
theorem endInto_prediction (e : Evaluation) (bank : BankName) (s : State) :
    (endInto e bank s).prediction = { s.prediction with
      rings := tset s.prediction.rings e.target
        (pushRing (evalRecord e bank) (getRing e.target s))
      evaluations := s.prediction.evaluations.filter fun x => decide (x.target ≠ e.target) } := by
  unfold endInto
  dsimp only
  split <;> rfl

theorem predictionChange_keeps_engineLaw (h : PredictionChange s t) (hs : EngineLaw s.prediction) :
    EngineLaw t.prediction := by
  cases h with
  | begin u f =>
    obtain ⟨hrings, hslot, hsorted⟩ := hs
    refine ⟨hrings, fun x hx hu => ?_, insertEvaluation_sorted hsorted⟩
    rcases mem_insertEvaluation hx with rfl | hx
    · show (slotOfTarget u).map _ = none
      rw [slotOfTarget_none (u := u) hu]
      rfl
    · exact hslot x hx hu
  | read => exact engineLaw_of_same (e := s.prediction) hs (grantRead_spec _ _)
  | reads u =>
    refine engineLaw_of_same (e := s.prediction) hs ?_
    show ((s.prediction.evaluations.map _).map _) = _
    rw [List.map_map]
    refine List.map_congr_left fun e _ => ?_
    simp only [Function.comp]
    split
    · rw [(readAll_spec _ e).1, (readAll_spec _ e).2.1]
    · rfl
  | ended e bank hf hw hb =>
    obtain ⟨hlen, hmem⟩ := hs.1 e.target
    have hslot := hs.2.1 e (List.mem_of_find?_eq_some hf)
    rw [endInto_prediction]
    refine engineLaw_filter (engineLaw_ring hs (length_pushRing hlen) fun r hr => ?_)
    rcases mem_pushRing hr with rfl | hr
    · refine ⟨by simp [evalRecord, listedContributors], fun hu => ?_⟩
      simp [evalRecord, hslot hu]
    · exact hmem r hr
  | abandoned slot => exact engineLaw_filter hs
  | emptied u => exact engineLaw_ring hs (Nat.zero_le _) fun r hr => absurd hr List.not_mem_nil
  | gaps a b => exact engineLaw_of_same hs rfl

/-- A small change makes a change of the Prediction Engine, or leaves rings and evaluations, or is a
reset. -/
theorem Change.prediction_cases {k : Kind} (hk : k ≠ .boundary) (h : Change k s t) :
    PredictionChange s t ∨ (t.prediction.rings = s.prediction.rings ∧
        t.prediction.evaluations = s.prediction.evaluations) ∨ t.prediction = emptyPrediction := by
  cases h with
  | prediction h => exact .inl h
  | table h => rw [h.frame]; exact .inr (.inl ⟨rfl, rfl⟩)
  | cache h => rw [h.frame]; exact .inr (.inl ⟨rfl, rfl⟩)
  | store h => rw [h.frame]; exact .inr (.inl ⟨rfl, rfl⟩)
  | adapt h => rw [h.frame]; exact .inr (.inl ⟨rfl, rfl⟩)
  | station h => rw [h.frame]; exact .inr (.inl ⟨rfl, rfl⟩)
  | suppression h => rw [h.frame]; exact .inr (.inl ⟨rfl, rfl⟩)
  | link h => rw [h.frame]; exact .inr (.inl ⟨rfl, rfl⟩)
  | port h => rw [h.frame]; exact .inr (.inl ⟨rfl, rfl⟩)
  | time h => rw [h.frame]; exact .inr (.inl ⟨rfl, rfl⟩)
  | window h => rw [h.frame]; exact .inr (.inl ⟨rfl, rfl⟩)
  | frame h => rw [h.frame]; exact .inr (.inl ⟨rfl, rfl⟩)
  | sweep h => rw [h.frame]; exact .inr (.inl ⟨rfl, rfl⟩)
  | opened | taken | settings | flags => exact .inr (.inl ⟨rfl, rfl⟩)
  | warm | cold => exact .inr (.inr rfl)
  | boundary => exact absurd rfl hk

theorem change_keeps_ringLaw {k : Kind} (hk : k ≠ .boundary) (h : Change k s t) (hs : RingLaw s) :
    RingLaw t := by
  have hs : EngineLaw s.prediction := hs
  show EngineLaw t.prediction
  rcases h.prediction_cases hk with h | ⟨hr, he⟩ | h
  · exact predictionChange_keeps_engineLaw h hs
  · simpa only [EngineLaw, hr, he] using hs
  · rw [h]
    exact emptyPrediction_law

/-! ### The Adaptation Engine's queue (R94) -/

/-- A step that may stand in the queue: it has an update to make, and its target is not frozen. -/
def StepOk (r : Vector AdaptRecord 112) (st : Step) : Prop :=
  st.updates ≠ [] ∧ (tget r st.target).frozen = false

/-- The law of the queue, of an engine. -/
def QueueLaw (e : AdaptationEngine) : Prop :=
  queuedUpdates e.steps ≤ 256 ∧ (∀ st ∈ e.steps, StepOk e.records st) ∧
  ∀ m ∈ e.openMoment, e.steps = m.queue ∧ queuedUpdates m.before ≤ 256 ∧
    ∀ st ∈ m.before ++ m.taken, StepOk e.records st

theorem queuedUpdates_append (l m : List Step) :
    queuedUpdates (l ++ m) = queuedUpdates l + queuedUpdates m := by
  simp [queuedUpdates]

theorem queuedUpdates_joinQueue {l : List Step} (st : Step) (h : queuedUpdates l ≤ 256) :
    queuedUpdates (joinQueue l st) ≤ 256 := by
  unfold joinQueue
  split
  · exact h
  · next hn =>
    rw [queuedUpdates_append]
    have : queuedUpdates [st] = st.updates.length := by simp [queuedUpdates]
    simp only [updateCapacity] at hn
    omega

theorem queuedUpdates_foldl {l b : List Step} (h : queuedUpdates b ≤ 256) :
    queuedUpdates (l.foldl joinQueue b) ≤ 256 := by
  induction l generalizing b with
  | nil => exact h
  | cons st l ih => exact ih (queuedUpdates_joinQueue st h)

theorem mem_foldl_joinQueue {l b : List Step} {st : Step} (h : st ∈ l.foldl joinQueue b) :
    st ∈ b ++ l := by
  induction l generalizing b with
  | nil => simpa using h
  | cons x l ih =>
    rcases List.mem_append.mp (ih h) with h | h
    · unfold joinQueue at h
      split at h
      · exact List.mem_append_left _ h
      · rw [List.append_cons]
        exact List.mem_append_left _ h
    · exact List.mem_append_right _ (List.mem_cons_of_mem _ h)

/-- Steps that all find room join the queue as they stand. -/
theorem foldl_joinQueue_of_room {l b : List Step} (h : queuedUpdates (b ++ l) ≤ 256) :
    l.foldl joinQueue b = b ++ l := by
  induction l generalizing b with
  | nil => simp
  | cons x l ih =>
    have hx : joinQueue b x = b ++ [x] := by
      unfold joinQueue
      rw [if_neg]
      rw [queuedUpdates_append] at h
      simp only [queuedUpdates, List.map_cons, List.sum_cons, updateCapacity] at h ⊢
      omega
    rw [List.foldl_cons, hx, ih (by simpa using h)]
    simp

theorem mem_insertStep {x st : Step} {l : List Step} (h : x ∈ insertStep st l) : x = st ∨ x ∈ l := by
  induction l with
  | nil => exact .inl (List.mem_singleton.mp h)
  | cons y l ih =>
    unfold insertStep at h
    split at h
    · exact List.mem_cons.mp h
    · rcases List.mem_cons.mp h with h | h
      · exact .inr (h ▸ List.mem_cons_self)
      · rcases ih h with h | h
        · exact .inl h
        · exact .inr (List.mem_cons_of_mem _ h)

/-- The queue that a grant leaves: the moment that stands open still gives it (R94). -/
theorem queueLaw_setSteps {e : AdaptationEngine} {begun rest : List Step} {r : Vector AdaptRecord 112}
    (hlen : queuedUpdates (begun ++ rest) ≤ 256) (hok : ∀ st ∈ begun ++ rest, StepOk r st) :
    QueueLaw { e with
      records := r, steps := begun ++ rest, openMoment := e.openMoment.map (·.onto begun rest) } := by
  refine ⟨hlen, hok, fun m hm => ?_⟩
  obtain ⟨m, -, rfl⟩ := Option.mem_map.mp hm
  let p := fun st : Step => decide (st.moment ≠ m.moment)
  have hsplit : (begun ++ rest.takeWhile p) ++ rest.dropWhile p = begun ++ rest := by
    rw [List.append_assoc, List.takeWhile_append_dropWhile]
  refine ⟨?_, ?_, ?_⟩
  · show begun ++ rest = (rest.dropWhile p).foldl joinQueue (begun ++ rest.takeWhile p)
    rw [foldl_joinQueue_of_room (hsplit.symm ▸ hlen), hsplit]
  · show queuedUpdates (begun ++ rest.takeWhile p) ≤ 256
    rw [← hsplit, queuedUpdates_append] at hlen
    omega
  · show ∀ st ∈ (begun ++ rest.takeWhile p) ++ rest.dropWhile p, _
    rw [hsplit]
    exact hok

theorem queueLaw_of_frozen {e : AdaptationEngine} {r : Vector AdaptRecord 112} (h : QueueLaw e)
    (hr : ∀ u, (tget r u).frozen = (tget e.records u).frozen) :
    QueueLaw { e with records := r } := by
  have hok : ∀ st, StepOk e.records st → StepOk r st := fun st h => ⟨h.1, by rw [hr]; exact h.2⟩
  obtain ⟨hlen, hsteps, hmoment⟩ := h
  refine ⟨hlen, fun st hst => hok st (hsteps st hst), fun m hm => ?_⟩
  obtain ⟨hq, hb, hm⟩ := hmoment m hm
  exact ⟨hq, hb, fun st hst => hok st (hm st hst)⟩

theorem queueLaw_queued {e : AdaptationEngine} {st : Step} (h : QueueLaw e)
    (hst : StepOk e.records st) :
    QueueLaw { e with
      steps := ((momentOf st e).take st).queue, openMoment := some ((momentOf st e).take st) } := by
  obtain ⟨hlen, hsteps, hmoment⟩ := h
  have hof : queuedUpdates (momentOf st e).before ≤ 256 ∧
      ∀ x ∈ (momentOf st e).before ++ (momentOf st e).taken, StepOk e.records x := by
    have hfresh : queuedUpdates e.steps ≤ 256 ∧ ∀ x ∈ e.steps ++ [], StepOk e.records x :=
      ⟨hlen, by simpa using hsteps⟩
    unfold momentOf
    split
    · next m hm =>
      split
      · exact (hmoment m hm).2
      · exact hfresh
    · exact hfresh
  have hall : ∀ x ∈ (momentOf st e).before ++ insertStep st (momentOf st e).taken,
      StepOk e.records x := fun x hx => by
    rcases List.mem_append.mp hx with hx | hx
    · exact hof.2 x (List.mem_append_left _ hx)
    · rcases mem_insertStep hx with rfl | hx
      · exact hst
      · exact hof.2 x (List.mem_append_right _ hx)
  refine ⟨queuedUpdates_foldl hof.1, fun x hx => hall x (mem_foldl_joinQueue hx), fun m hm => ?_⟩
  obtain rfl := Option.some.inj hm
  exact ⟨rfl, hof.1, hall⟩

theorem queuedUpdates_filter (p : Step → Bool) (l : List Step) :
    queuedUpdates (l.filter p) ≤ queuedUpdates l :=
  List.Sublist.sum_le_sum (List.filter_sublist.map _) fun _ _ => Nat.zero_le _

/-- The steps of a target that has been frozen are cut off (R111). -/
theorem queueLaw_cut {e : AdaptationEngine} {u : Target} {f : AdaptRecord → AdaptRecord}
    (h : QueueLaw e) :
    QueueLaw { e with
      records := tmod e.records u f
      steps := [] ++ e.steps.filter fun st => decide (st.target ≠ u)
      openMoment := e.openMoment.map
        (·.onto [] (e.steps.filter fun st => decide (st.target ≠ u))) } := by
  obtain ⟨hlen, hsteps, -⟩ := h
  refine queueLaw_setSteps ((queuedUpdates_filter _ _).trans hlen) fun st hst => ?_
  obtain ⟨hmem, hne⟩ := List.mem_filter.mp hst
  refine ⟨(hsteps st hmem).1, ?_⟩
  rw [tget_tmod_of_ne _ _ (of_decide_eq_true hne)]
  exact (hsteps st hmem).2

theorem adaptChange_keeps_queueLaw (h : AdaptChange s t) (hs : QueueLaw s.adaptation) :
    QueueLaw t.adaptation := by
  have hmod : ∀ (u : Target) (f : AdaptRecord → AdaptRecord), (∀ a, (f a).frozen = a.frozen) →
      QueueLaw (modAdapt u f s).adaptation := fun u f hf =>
    queueLaw_of_frozen hs fun v => by
      rw [tget_tmod]
      split
      · exact hf _
      · rfl
  cases h with
  | mod u f h => exact hmod u f fun a => (h a).2
  | map f h => exact queueLaw_of_frozen hs fun v => by rw [tget_map]; exact (h _).2
  | queued st hu hf => exact queueLaw_queued hs ⟨hu, hf⟩
  | ended st rest h =>
    obtain ⟨hlen, hsteps, -⟩ := hs
    rw [h] at hlen hsteps
    refine queueLaw_setSteps (r := s.adaptation.records) ?_ fun x hx => hsteps x ?_
    · simp only [queuedUpdates, List.map_cons, List.sum_cons, List.nil_append] at hlen ⊢
      omega
    · exact List.mem_cons_of_mem _ hx
  | stepped st rest u more mark h hu hm =>
    obtain ⟨hlen, hsteps, -⟩ := hs
    rw [h] at hlen hsteps
    refine queueLaw_setSteps (r := s.adaptation.records) ?_ fun x hx => ?_
    · simp only [queuedUpdates, List.map_cons, List.sum_cons, List.singleton_append, hu,
        List.length_cons] at hlen ⊢
      omega
    · rcases List.mem_cons.mp hx with rfl | hx
      · exact ⟨hm, (hsteps st List.mem_cons_self).2⟩
      · exact hsteps x (List.mem_cons_of_mem _ hx)
  | diverged u d h => exact hmod u _ fun _ => rfl
  | frozen u d h => exact queueLaw_cut hs

/-- A small change makes a change of the Adaptation Engine, or leaves records, steps and open moment,
or is a warm or a cold reset. -/
theorem Change.adaptation_cases {k : Kind} (hk : k ≠ .boundary) (h : Change k s t) :
    AdaptChange s t ∨ (∃ g, t.adaptation = { s.adaptation with gap := g }) ∨
      t.adaptation = ⟨s.adaptation.records.map (AdaptRecord.warm s.settings.global.settle), [], none,
        false⟩ ∨ (k = .cold ∧ t.adaptation = coldAdaptation) := by
  cases h with
  | adapt h => exact .inl h
  | table h => rw [h.frame]; exact .inr (.inl ⟨_, rfl⟩)
  | cache h => rw [h.frame]; exact .inr (.inl ⟨_, rfl⟩)
  | store h => rw [h.frame]; exact .inr (.inl ⟨_, rfl⟩)
  | prediction h => rw [h.frame]; exact .inr (.inl ⟨_, rfl⟩)
  | station h => rw [h.frame]; exact .inr (.inl ⟨_, rfl⟩)
  | suppression h => rw [h.frame]; exact .inr (.inl ⟨_, rfl⟩)
  | link h => rw [h.frame]; exact .inr (.inl ⟨_, rfl⟩)
  | port h => rw [h.frame]; exact .inr (.inl ⟨_, rfl⟩)
  | time h => rw [h.frame]; exact .inr (.inl ⟨_, rfl⟩)
  | window h => rw [h.frame]; exact .inr (.inl ⟨_, rfl⟩)
  | frame h => rw [h.frame]; exact .inr (.inl ⟨_, rfl⟩)
  | sweep h => rw [h.frame]; exact .inr (.inl ⟨_, rfl⟩)
  | opened | taken | settings | flags => exact .inr (.inl ⟨_, rfl⟩)
  | warm => exact .inr (.inr (.inl rfl))
  | cold => exact .inr (.inr (.inr ⟨rfl, rfl⟩))
  | boundary => exact absurd rfl hk

theorem change_keeps_updateQueueLaw {k : Kind} (hk : k ≠ .boundary) (h : Change k s t)
    (hs : UpdateQueueLaw s) : UpdateQueueLaw t := by
  have hs : QueueLaw s.adaptation := hs
  have hnone : ∀ r g, QueueLaw ⟨r, [], none, g⟩ := fun r g =>
    ⟨Nat.zero_le _, fun _ h => absurd h List.not_mem_nil, fun _ h => nomatch h⟩
  show QueueLaw t.adaptation
  rcases h.adaptation_cases hk with h | ⟨g, h⟩ | h | ⟨-, h⟩
  · exact adaptChange_keeps_queueLaw h hs
  · rw [h]
    exact hs
  · rw [h]
    exact hnone _ _
  · rw [h]
    exact hnone _ _

/-- Settles O8: each change of the Prediction or the Adaptation Engine keeps its law. -/
theorem stepsKeepTheRingAndUpdateQueueLaws : Obligations.StepsKeepTheRingAndUpdateQueueLaws := by
  unfold Obligations.StepsKeepTheRingAndUpdateQueueLaws
  exact ⟨fun s t hs h => step_keeps (P := RingLaw) (fun _ _ h => h)
      (fun c s t h => exec_keeps (fun k s t => change_keeps_ringLaw) h) h hs,
    fun s t hs h => step_keeps (P := UpdateQueueLaw) (fun _ _ h => h)
      (fun c s t h => exec_keeps (fun k s t => change_keeps_updateQueueLaw) h) h hs⟩

end Sys2Proof.Machine
end

section
/-! PROOF. Divergence (R111), suppression (R139), settings (R167), latched flags (R168), presence
(R22) and the filters (R127): laws that each small change of the block in question keeps. -/

namespace Sys2Proof.Machine

variable {s t : State}

/-! ### The commands that bring a change of a rarer kind -/

/-- Only the cold resets bring a cold reset (R171). -/
theorem cold_mem_kindsOf {c : Instr} (h : Kind.cold ∈ kindsOf c) :
    (∃ p, c = .restartCold p) ∨ c = .resetLine ∨ c = .powerUp := by
  cases c with
  | restartCold p => exact .inl ⟨p, rfl⟩
  | resetLine => exact .inr (.inl rfl)
  | powerUp => exact .inr (.inr rfl)
  | _ => exact absurd (List.elem_eq_true_of_mem h) Bool.false_ne_true

/-- Only SETTING-WRITE stores a setting (R167). -/
theorem settings_mem_kindsOf {c : Instr} (h : Kind.settings ∈ kindsOf c) :
    ∃ p, c = .settingWrite p := by
  cases c with
  | settingWrite p => exact ⟨p, rfl⟩
  | _ => exact absurd (List.elem_eq_true_of_mem h) Bool.false_ne_true

/-- Only READ-FLAGS clears the flags, but for the resets (R168). -/
theorem flags_mem_kindsOf {c : Instr} (h : Kind.flags ∈ kindsOf c) : ∃ p, c = .readFlags p := by
  cases c with
  | readFlags p => exact ⟨p, rfl⟩
  | _ => exact absurd (List.elem_eq_true_of_mem h) Bool.false_ne_true

/-- Only the warm resets bring a warm reset (R171). -/
theorem warm_mem_kindsOf {c : Instr} (h : Kind.warm ∈ kindsOf c) :
    (∃ p, c = .restartWarm p) ∨ c = .warmLine := by
  cases c with
  | restartWarm p => exact .inl ⟨p, rfl⟩
  | warmLine => exact .inr rfl
  | _ => exact absurd (List.elem_eq_true_of_mem h) Bool.false_ne_true

/-- What a command may be made of, with the kinds of a boundary, holds a rarer kind only where the
command itself brings it. -/
theorem mem_kindsOf_of_or {c : Instr} {k : Kind}
    (h : k ∈ kindsOf c ∨ k ∈ [Kind.plain, .frame, .taken]) (hplain : k ∉ [Kind.plain, .frame, .taken]) :
    k ∈ kindsOf c :=
  h.resolve_right hplain

/-! ### Divergence (R111) -/

/-- The law of one adaptation record. -/
def DivergenceOk (a : AdaptRecord) : Prop :=
  a.divergence ≤ 3 ∧ (a.frozen = true ↔ a.divergence = 3)

/-- From one adaptation record to the next the divergence count has not fallen, and the law stands. -/
def DivergenceRises (a b : AdaptRecord) : Prop :=
  DivergenceOk a → DivergenceOk b ∧ a.divergence ≤ b.divergence

theorem DivergenceRises.of_same {a b : AdaptRecord} (hd : b.divergence = a.divergence)
    (hf : b.frozen = a.frozen) : DivergenceRises a b := fun h => by
  unfold DivergenceOk at h ⊢
  rw [hd, hf]
  exact ⟨h, le_refl _⟩

theorem DivergenceRises.refl (a : AdaptRecord) : DivergenceRises a a := .of_same rfl rfl

/-- A change of one target's record reaches no other's. -/
theorem divergenceRises_modAdapt {u : Target} {f : AdaptRecord → AdaptRecord}
    (h : DivergenceRises (getAdapt u s) (f (getAdapt u s))) (v : Target) :
    DivergenceRises (getAdapt v s) (getAdapt v (modAdapt u f s)) := by
  rw [getAdapt_modAdapt]
  split
  · next e => exact e ▸ h
  · exact .refl _

theorem adaptChange_divergence (h : AdaptChange s t) (v : Target) :
    DivergenceRises (getAdapt v s) (getAdapt v t) := by
  cases h with
  | mod u f h => exact divergenceRises_modAdapt (.of_same (h _).1 (h _).2) v
  | map f h =>
    show DivergenceRises _ (tget (s.adaptation.records.map f) v)
    rw [tget_map]
    exact .of_same (h _).1 (h _).2
  | queued | ended | stepped => exact .refl _
  | diverged u d hlow =>
    refine divergenceRises_modAdapt (fun ⟨hle, hf⟩ => ⟨⟨?_, ?_⟩, ?_⟩) v
    · show (getAdapt u s).divergence + 1 ≤ 3
      omega
    · show (getAdapt u s).frozen = true ↔ (getAdapt u s).divergence + 1 = 3
      rw [hf]
      omega
    · exact Nat.le_succ _
  | frozen u d hhigh =>
    exact divergenceRises_modAdapt (fun ⟨hle, _⟩ => ⟨⟨le_refl _, by simp⟩, hle⟩) v

/-- Every small change but a cold reset keeps the law and lowers no count. -/
theorem change_divergence {k : Kind} (hk : k ≠ .boundary) (hcold : k ≠ .cold) (h : Change k s t)
    (v : Target) : DivergenceRises (getAdapt v s) (getAdapt v t) := by
  rcases h.adaptation_cases hk with h | ⟨g, h⟩ | h | ⟨hc, -⟩
  · exact adaptChange_divergence h v
  · unfold getAdapt
    rw [h]
    exact .refl _
  · unfold getAdapt
    rw [h, tget_map]
    exact .of_same rfl rfl
  · exact absurd hc hcold

theorem change_keeps_divergenceLaw {k : Kind} (hk : k ≠ .boundary) (h : Change k s t)
    (hs : DivergenceLaw s) : DivergenceLaw t := by
  by_cases hcold : k = .cold
  · subst hcold
    cases h
    intro u
    simp [getAdapt, State.cold, coldAdaptation, coldAdapt]
  · exact fun u => (change_divergence hk hcold h u (hs u)).1

/-- Settles O9: only a divergence event changes a count, and it raises it to 3 at most. -/
theorem stepsKeepTheDivergenceLaw : Obligations.StepsKeepTheDivergenceLaw := by
  unfold Obligations.StepsKeepTheDivergenceLaw
  refine ⟨fun s t hs h => step_keeps (P := DivergenceLaw) (fun _ _ h => h)
      (fun c s t h => exec_keeps (fun k s t => change_keeps_divergenceLaw) h) h hs,
    fun c s t u hs h hline hpower hcold => ?_⟩
  have hkinds : ∀ k, k ∈ kindsOf c ∨ k ∈ [Kind.plain, .frame, .taken] → k ≠ .cold := by
    rintro k hk rfl
    rcases cold_mem_kindsOf (mem_kindsOf_of_or hk (by decide)) with ⟨p, e⟩ | e | e
    exacts [hcold p e, hline e, hpower e]
  refine (exec_keeps_of_kinds (P := fun x => DivergenceOk (getAdapt u x) ∧
    (getAdapt u s).divergence ≤ (getAdapt u x).divergence) (fun k x y hk hb hc hx => ?_) h
    ⟨hs u, le_refl _⟩).2
  obtain ⟨hok, hle⟩ := change_divergence hb (hkinds k hk) hc u hx.1
  exact ⟨hok, hx.2.trans hle⟩

/-! ### Settings (R167) -/

/-- A small change stores a setting, or leaves the settings, or is a cold reset. -/
theorem Change.settings_cases {k : Kind} (hk : k ≠ .boundary) (h : Change k s t) :
    t.settings = s.settings ∨
      (k = .settings ∧ ∃ site v, s.settings.write site v = some t.settings) ∨
      (k = .cold ∧ t.settings = defaultSettings) := by
  cases h with
  | settings site v g s h => exact .inr (.inl ⟨rfl, site, v, h⟩)
  | cold => exact .inr (.inr ⟨rfl, rfl⟩)
  | table h => rw [h.frame]; exact .inl rfl
  | cache h => rw [h.frame]; exact .inl rfl
  | store h => rw [h.frame]; exact .inl rfl
  | prediction h => rw [h.frame]; exact .inl rfl
  | adapt h => rw [h.frame]; exact .inl rfl
  | station h => rw [h.frame]; exact .inl rfl
  | suppression h => rw [h.frame]; exact .inl rfl
  | link h => rw [h.frame]; exact .inl rfl
  | port h => rw [h.frame]; exact .inl rfl
  | time h => rw [h.frame]; exact .inl rfl
  | window h => rw [h.frame]; exact .inl rfl
  | frame h => rw [h.frame]; exact .inl rfl
  | sweep h => rw [h.frame]; exact .inl rfl
  | opened | taken | flags | warm => exact .inl rfl
  | boundary => exact absurd rfl hk

/-- The range of every global setting. -/
def GlobalOk (g : GlobalSettings) : Prop :=
  Within 0 15 g.blanking ∧ Within 0 32767 g.theta ∧ Within 0 63 g.settle ∧
    Within 1 4095 g.divergenceHold ∧ Within 1 31 g.stationLock ∧ Within 1 31 g.stationUnlock ∧
    Within 1 1023 g.shockHold ∧ Within 1 31 g.presenceLock ∧ Within 1 15 g.presenceUnlock ∧
    Within 2 16 g.divider

/-- The range of every common setting of a target. -/
def TargetOk (g : TargetSettings) : Prop :=
  Within 0 255 g.mu ∧ Within 0 4095 g.deadband ∧ Within 1 32767 g.gmax ∧ Within 1 16 g.interval

/-- The range of every numeric setting of a slot. -/
def SlotOk (g : SlotSettings) : Prop :=
  Within 1 32767 g.feedLimit ∧ (∀ x ∈ g.tap1, -32768 ≤ x.weight ∧ x.weight ≤ 32767) ∧
    ∀ x ∈ g.tap2, -32768 ≤ x.weight ∧ x.weight ≤ 32767

/-- The range of every numeric setting of a station. -/
def StationOk (g : StationSettings) : Prop :=
  Within 0 65535 g.scale ∧ Within 1 32767 g.threshold ∧ Within 0 3 g.coefficient

theorem globalOk_write {g : GlobalSettings} (h : GlobalOk g) (n : SettingName) (v : Nat) :
    GlobalOk (g.write n v) := by
  have hclip := fun lo hi h => clipNat_within lo hi v h
  obtain ⟨h0, h1, h2, h3, h4, h5, h6, h7, h8, h9⟩ := h
  cases n with
  | blanking => exact ⟨hclip _ _ (by decide), h1, h2, h3, h4, h5, h6, h7, h8, h9⟩
  | theta => exact ⟨h0, hclip _ _ (by decide), h2, h3, h4, h5, h6, h7, h8, h9⟩
  | settle => exact ⟨h0, h1, hclip _ _ (by decide), h3, h4, h5, h6, h7, h8, h9⟩
  | divergenceHold => exact ⟨h0, h1, h2, hclip _ _ (by decide), h4, h5, h6, h7, h8, h9⟩
  | stationLock => exact ⟨h0, h1, h2, h3, hclip _ _ (by decide), h5, h6, h7, h8, h9⟩
  | stationUnlock => exact ⟨h0, h1, h2, h3, h4, hclip _ _ (by decide), h6, h7, h8, h9⟩
  | shockHold => exact ⟨h0, h1, h2, h3, h4, h5, hclip _ _ (by decide), h7, h8, h9⟩
  | presenceLock => exact ⟨h0, h1, h2, h3, h4, h5, h6, hclip _ _ (by decide), h8, h9⟩
  | presenceUnlock => exact ⟨h0, h1, h2, h3, h4, h5, h6, h7, hclip _ _ (by decide), h9⟩
  | divider => exact ⟨h0, h1, h2, h3, h4, h5, h6, h7, h8, hclip _ _ (by decide)⟩
  | _ => exact ⟨h0, h1, h2, h3, h4, h5, h6, h7, h8, h9⟩

theorem targetOk_write {g x : TargetSettings} (h : TargetOk g) {n : SettingName} {v : SettingValue}
    (hw : g.write n v = some x) : TargetOk x := by
  have hclip := fun lo hi h => clipNat_within lo hi v.value.toNat h
  obtain ⟨h0, h1, h2, h3⟩ := h
  cases n with
  | enable =>
    obtain ⟨b, -, rfl⟩ := Option.map_eq_some_iff.mp hw
    exact ⟨h0, h1, h2, h3⟩
  | mu => cases hw; exact ⟨hclip _ _ (by decide), h1, h2, h3⟩
  | deadband => cases hw; exact ⟨h0, hclip _ _ (by decide), h2, h3⟩
  | gmax => cases hw; exact ⟨h0, h1, hclip _ _ (by decide), h3⟩
  | interval => cases hw; exact ⟨h0, h1, h2, hclip _ _ (by decide)⟩
  | _ => cases hw

theorem stationOk_write {g x : StationSettings} (h : StationOk g) {n : SettingName}
    {v : SettingValue} (hw : g.write n v = some x) : StationOk x := by
  have hclip := fun lo hi h => clipNat_within lo hi v.value.toNat h
  obtain ⟨h0, h1, h2⟩ := h
  cases n with
  | sense =>
    obtain ⟨b, -, rfl⟩ := Option.map_eq_some_iff.mp hw
    exact ⟨h0, h1, h2⟩
  | scale => cases hw; exact ⟨hclip _ _ (by decide), h1, h2⟩
  | threshold => cases hw; exact ⟨h0, hclip _ _ (by decide), h2⟩
  | coefficient => cases hw; exact ⟨h0, h1, hclip _ _ (by decide)⟩
  | _ => cases hw

/-- The weight of a tap on the wire is a 16-bit number (R176). -/
theorem optionalTapOf_weight {v : SettingValue} {o : Option Tap} (h : optionalTapOf v = some o)
    (x : Tap) (hx : x ∈ o) : -32768 ≤ x.weight ∧ x.weight ≤ 32767 := by
  have hweight : ∀ b : BitVec 16, -32768 ≤ b.toInt ∧ b.toInt ≤ 32767 := fun b => by
    have hlow := BitVec.le_toInt b
    have hhigh := BitVec.toInt_lt (x := b)
    simp at hlow hhigh
    omega
  unfold optionalTapOf at h
  split at h
  · cases h
    cases hx
  · obtain ⟨k, -, rfl⟩ := Option.map_eq_some_iff.mp h
    obtain rfl := Option.some.inj hx
    exact hweight _
  · cases h

theorem slotOk_write {g x : SlotSettings} (h : SlotOk g) {n : SettingName} {v : SettingValue}
    (hw : g.write n v = some x) : SlotOk x := by
  obtain ⟨h0, h1, h2⟩ := h
  cases n with
  | feedLimit => cases hw; exact ⟨clipNat_within _ _ _ (by decide), h1, h2⟩
  | tap1 =>
    obtain ⟨o, ho, rfl⟩ := Option.map_eq_some_iff.mp hw
    exact ⟨h0, optionalTapOf_weight ho, h2⟩
  | tap2 =>
    obtain ⟨o, ho, rfl⟩ := Option.map_eq_some_iff.mp hw
    exact ⟨h0, h1, optionalTapOf_weight ho⟩
  | suppressionMode =>
    obtain ⟨m, -, rfl⟩ := Option.map_eq_some_iff.mp hw
    exact ⟨h0, h1, h2⟩
  | shockStation =>
    obtain ⟨k, -, rfl⟩ := Option.map_eq_some_iff.mp hw
    exact ⟨h0, h1, h2⟩
  | _ => cases hw

/-- Every numeric setting of a settings table lies in its range. -/
def SettingsOk (g : Settings) : Prop :=
  GlobalOk g.global ∧ (∀ u : Target, TargetOk (tget g.targets u)) ∧
    (∀ slot : Slot, SlotOk (tget g.slots slot)) ∧ ∀ k : Station, StationOk (tget g.stations k)

/-- An entry of a table whose entries all satisfy a condition is replaced by one that does too. -/
theorem forall_tset {α : Type} {n : Nat} {P : α → Prop} {v : Vector α n} {i : Fin n} {a : α}
    (h : ∀ j, P (tget v j)) (ha : P a) (j : Fin n) : P (tget (tset v i a) j) := by
  rw [tget_tset]
  split
  · exact ha
  · exact h j

theorem settingsOk_write {g x : Settings} (h : SettingsOk g) {site : SettingSite} {v : SettingValue}
    (hw : g.write site v = some x) : SettingsOk x := by
  obtain ⟨hg, ht, hs, hk⟩ := h
  cases site with
  | global n => cases hw; exact ⟨globalOk_write hg n _, ht, hs, hk⟩
  | target u n =>
    obtain ⟨y, hy, rfl⟩ := Option.map_eq_some_iff.mp hw
    exact ⟨hg, forall_tset ht (targetOk_write (ht u) hy), hs, hk⟩
  | slot sl n =>
    obtain ⟨y, hy, rfl⟩ := Option.map_eq_some_iff.mp hw
    exact ⟨hg, ht, forall_tset hs (slotOk_write (hs sl) hy), hk⟩
  | station k n =>
    obtain ⟨y, hy, rfl⟩ := Option.map_eq_some_iff.mp hw
    exact ⟨hg, ht, hs, forall_tset hk (stationOk_write (hk k) hy)⟩

theorem defaultSettings_ok : SettingsOk defaultSettings := by
  simp [SettingsOk, defaultSettings, GlobalOk, TargetOk, SlotOk, StationOk, defaultGlobal,
    defaultTarget, defaultSlot, defaultStation, defaultSettle, Within]

theorem change_keeps_settingsLaw {k : Kind} (hk : k ≠ .boundary) (h : Change k s t)
    (hs : SettingsLaw s) : SettingsLaw t := by
  have hs : SettingsOk s.settings := hs
  show SettingsOk t.settings
  rcases h.settings_cases hk with h | ⟨-, site, v, h⟩ | ⟨-, h⟩
  · rw [h]
    exact hs
  · exact settingsOk_write hs h
  · rw [h]
    exact defaultSettings_ok

/-- Settles O12: only SETTING-WRITE and the cold resets bring a change of the settings, and what a
write stores is clipped into range. -/
theorem stepsKeepSettingsInRange : Obligations.StepsKeepSettingsInRange := by
  unfold Obligations.StepsKeepSettingsInRange
  refine ⟨fun s t hs h => step_keeps (P := SettingsLaw) (fun _ _ h => h)
      (fun c s t h => exec_keeps (fun k s t => change_keeps_settingsLaw) h) h hs,
    fun c s t h hwrite hline hpower hcold => ?_⟩
  have hkinds : ∀ k, k ∈ kindsOf c ∨ k ∈ [Kind.plain, .frame, .taken] →
      k ≠ .settings ∧ k ≠ .cold := by
    intro k hk
    constructor <;> rintro rfl
    · obtain ⟨p, e⟩ := settings_mem_kindsOf (mem_kindsOf_of_or hk (by decide))
      exact hwrite p e
    · rcases cold_mem_kindsOf (mem_kindsOf_of_or hk (by decide)) with ⟨p, e⟩ | e | e
      exacts [hcold p e, hline e, hpower e]
  refine exec_keeps_of_kinds (P := fun x => x.settings = s.settings)
    (fun k x y hk hb hc hx => ?_) h rfl
  rcases hc.settings_cases hb with h | ⟨h, -⟩ | ⟨h, -⟩
  · exact h.trans hx
  · exact absurd h (hkinds k hk).1
  · exact absurd h (hkinds k hk).2

/-! ### Suppression (R139) -/

/-- A small change makes a change of the suppression records, or leaves them, or is a reset. -/
theorem Change.suppression_cases {k : Kind} (hk : k ≠ .boundary) (h : Change k s t) :
    SuppressionChange s t ∨ t.suppression = s.suppression ∨
      t.suppression = Vector.replicate 96 clearSuppression := by
  cases h with
  | suppression h => exact .inl h
  | table h => rw [h.frame]; exact .inr (.inl rfl)
  | cache h => rw [h.frame]; exact .inr (.inl rfl)
  | store h => rw [h.frame]; exact .inr (.inl rfl)
  | prediction h => rw [h.frame]; exact .inr (.inl rfl)
  | adapt h => rw [h.frame]; exact .inr (.inl rfl)
  | station h => rw [h.frame]; exact .inr (.inl rfl)
  | link h => rw [h.frame]; exact .inr (.inl rfl)
  | port h => rw [h.frame]; exact .inr (.inl rfl)
  | time h => rw [h.frame]; exact .inr (.inl rfl)
  | window h => rw [h.frame]; exact .inr (.inl rfl)
  | frame h => rw [h.frame]; exact .inr (.inl rfl)
  | sweep h => rw [h.frame]; exact .inr (.inl rfl)
  | opened | taken | settings | flags => exact .inr (.inl rfl)
  | warm | cold => exact .inr (.inr rfl)
  | boundary => exact absurd rfl hk

theorem suppressionChange_keeps_holds (h : SuppressionChange s t)
    (hpos : 1 ≤ s.settings.global.shockHold) (hs : ∀ slot, HoldOk (getSuppression slot s))
    (slot : Slot) : HoldOk (getSuppression slot t) := by
  cases h with
  | mod x f h =>
    rw [getSuppression_modSuppression]
    split
    · next e => rw [e]; exact h (hs x)
    · exact hs slot
  | map f h =>
    show HoldOk (tget (s.suppression.map f) slot)
    rw [tget_map]
    exact h _ (hs slot)
  | held x =>
    rw [getSuppression_modSuppression]
    split
    · exact ⟨⟨fun _ => hpos, fun _ => rfl⟩, fun e => nomatch e⟩
    · exact hs slot

/-- A stored setting leaves the shock hold setting or brings it into its range (R135). -/
theorem shockHold_write {g x : Settings} {site : SettingSite} {v : SettingValue}
    (hw : g.write site v = some x) (h : 1 ≤ g.global.shockHold) : 1 ≤ x.global.shockHold := by
  cases site with
  | global n =>
    cases hw
    cases n with
    | shockHold => exact (clipNat_within 1 1023 _ (by decide)).1
    | _ => exact h
  | target | slot | station =>
    obtain ⟨y, -, rfl⟩ := Option.map_eq_some_iff.mp hw
    exact h

theorem change_keeps_suppressionLaw {k : Kind} (hk : k ≠ .boundary) (h : Change k s t)
    (hs : SuppressionLaw s) : SuppressionLaw t := by
  obtain ⟨hholds, hpos⟩ := hs
  constructor
  · show ∀ slot, HoldOk (getSuppression slot t)
    intro slot
    rcases h.suppression_cases hk with h | h | h
    · exact suppressionChange_keeps_holds h hpos hholds slot
    · rw [getSuppression, h]
      exact hholds slot
    · rw [getSuppression, h, tget_replicate]
      simp [HoldOk, clearSuppression]
  · rcases h.settings_cases hk with h | ⟨-, site, v, h⟩ | ⟨-, h⟩
    · rw [h]
      exact hpos
    · exact shockHold_write h hpos
    · rw [h]
      decide

/-- Settles O11: every change of a suppression record keeps its hold above 0 exactly in HELD. -/
theorem stepsKeepTheSuppressionLaw : Obligations.StepsKeepTheSuppressionLaw := by
  unfold Obligations.StepsKeepTheSuppressionLaw
  exact fun s t hs h => step_keeps (P := SuppressionLaw) (fun _ _ h => h)
    (fun c s t h => exec_keeps (fun k s t => change_keeps_suppressionLaw) h) h hs

/-! ### Latched flags (R168) -/

/-- A small change leaves the latched flags, or latches one more, or clears them with READ-FLAGS or a
reset. -/
theorem Change.flags_cases {k : Kind} (hk : k ≠ .boundary) (h : Change k s t) :
    t.port.latched = s.port.latched ∨ (∃ f, t = latch f s) ∨ k = .flags ∨ k = .warm ∨ k = .cold := by
  cases h with
  | port h =>
    cases h with
    | latch f => exact .inr (.inl ⟨f, rfl⟩)
    | _ => exact .inl rfl
  | store h => cases h <;> exact .inl rfl
  | table h => rw [h.frame]; exact .inl rfl
  | cache h => rw [h.frame]; exact .inl rfl
  | prediction h => rw [h.frame]; exact .inl rfl
  | adapt h => rw [h.frame]; exact .inl rfl
  | station h => rw [h.frame]; exact .inl rfl
  | suppression h => rw [h.frame]; exact .inl rfl
  | link h => rw [h.frame]; exact .inl rfl
  | time h => rw [h.frame]; exact .inl rfl
  | window h => rw [h.frame]; exact .inl rfl
  | frame h => rw [h.frame]; exact .inl rfl
  | sweep h => rw [h.frame]; exact .inl rfl
  | opened | taken | settings => exact .inl rfl
  | flags => exact .inr (.inr (.inl rfl))
  | warm => exact .inr (.inr (.inr (.inl rfl)))
  | cold => exact .inr (.inr (.inr (.inr rfl)))
  | boundary => exact absurd rfl hk

/-- Settles O13: but for READ-FLAGS and the resets, a command's changes of the flags latch more. -/
theorem latchedFlagsStayLatched : Obligations.LatchedFlagsStayLatched := by
  unfold Obligations.LatchedFlagsStayLatched
  intro c s t h hread hwarm hwarmLine hcold hline hpower
  have hkinds : ∀ k, k ∈ kindsOf c ∨ k ∈ [Kind.plain, .frame, .taken] →
      k ≠ .flags ∧ k ≠ .warm ∧ k ≠ .cold := by
    intro k hk
    refine ⟨?_, ?_, ?_⟩ <;> rintro rfl
    · obtain ⟨p, e⟩ := flags_mem_kindsOf (mem_kindsOf_of_or hk (by decide))
      exact hread p e
    · rcases warm_mem_kindsOf (mem_kindsOf_of_or hk (by decide)) with ⟨p, e⟩ | e
      exacts [hwarm p e, hwarmLine e]
    · rcases cold_mem_kindsOf (mem_kindsOf_of_or hk (by decide)) with ⟨p, e⟩ | e | e
      exacts [hcold p e, hline e, hpower e]
  refine exec_keeps_of_kinds
    (P := fun x => x.port.latched &&& s.port.latched = s.port.latched)
    (fun k x y hk hb hc hx => ?_) h (BitVec.and_self ..)
  obtain ⟨hflags, hwarm, hcold⟩ := hkinds k hk
  rcases hc.flags_cases hb with h | ⟨f, rfl⟩ | h | h | h
  · rw [h]
    exact hx
  · have hlatch := latch_keeps f x
    calc (latch f x).port.latched &&& s.port.latched
        = (latch f x).port.latched &&& (x.port.latched &&& s.port.latched) := by rw [hx]
      _ = x.port.latched &&& s.port.latched := by rw [← BitVec.and_assoc, hlatch]
      _ = s.port.latched := hx
  · exact absurd h hflags
  · exact absurd h hwarm
  · exact absurd h hcold

/-! ### Presence (R22) -/

/-- A change of windows leaves every slot's presence. -/
theorem predictionChange_effective (h : PredictionChange s t) (x : Slot) :
    (getLink x t).effective = (getLink x s).effective := by
  have hmod : ∀ (slot : Slot) (f : LinkSlot → LinkSlot) (s : State),
      (∀ l, (f l).effective = l.effective) →
      (getLink x (modLink slot f s)).effective = (getLink x s).effective := fun slot f s hf => by
    rw [getLink_modLink]
    split
    · exact hf _
    · rfl
  cases h with
  | ended e bank hf hw hb =>
    unfold endInto
    dsimp only
    split
    · exact hmod _ _ _ fun _ => rfl
    · rfl
  | abandoned slot => exact hmod _ _ _ fun _ => rfl
  | begin | read | reads | emptied | gaps => rfl

theorem windowChange_effective (h : WindowChange s t) (x : Slot) :
    (getLink x t).effective = (getLink x s).effective := by
  cases h <;>
  · simp only [setAnswer, setFeedPhase, getLink_modLink]
    split <;> rfl

/-- A small change leaves presence, or changes a slot's link, or empties the table. -/
theorem Change.presence_cases {k : Kind} (hk : k ≠ .boundary) (h : Change k s t) :
    (∀ x, (getLink x t).effective = (getLink x s).effective) ∨ LinkChange s t ∨
      t.table = emptyTable := by
  have hopen : ∀ (l : Vector LinkSlot 96) (x : Slot),
      (tget (l.map openWindow) x).effective = (tget l x).effective := fun l x => by
    rw [tget_map]; rfl
  cases h with
  | link h => exact .inr (.inl h)
  | prediction h => exact .inl (predictionChange_effective h)
  | window h => exact .inl (windowChange_effective h)
  | frame h =>
    cases h with
    | shift => exact .inl fun _ => rfl
    | opened => exact .inl (hopen _)
  | opened => exact .inl (hopen _)
  | table h => rw [h.frame]; exact .inl fun _ => rfl
  | cache h => rw [h.frame]; exact .inl fun _ => rfl
  | store h => rw [h.frame]; exact .inl fun _ => rfl
  | adapt h => rw [h.frame]; exact .inl fun _ => rfl
  | station h => rw [h.frame]; exact .inl fun _ => rfl
  | suppression h => rw [h.frame]; exact .inl fun _ => rfl
  | port h => rw [h.frame]; exact .inl fun _ => rfl
  | time h => rw [h.frame]; exact .inl fun _ => rfl
  | sweep h => rw [h.frame]; exact .inl fun _ => rfl
  | taken | settings | flags => exact .inl fun _ => rfl
  | warm | cold => exact .inr (.inr rfl)
  | boundary => exact absurd rfl hk

theorem tableChange_keeps_presenceLaw (h : TableChange s t) (hs : PresenceLaw s) :
    PresenceLaw t := by
  cases h with
  | restate r v hr hv hslot _ _ =>
    intro q hq
    rw [getRecord_setRecord] at hq ⊢
    split
    · rw [hslot]
      exact hs r hr
    · next hne =>
      rw [if_neg hne] at hq
      exact hs q hq
  | retire r hr =>
    intro q hq
    have hne : q ≠ r := fun e => by
      rw [e, (retire_spec r s).1] at hq
      exact absurd hq (by decide)
    rw [getRecord_retire_of_ne hne] at hq ⊢
    exact hs q hq
  | fill r v hr hv htag hlive hpresent =>
    intro q hq
    simp only [getRecord_modLive, getRecord_setRecord, getRecord_modCount] at hq ⊢
    split
    · exact hpresent
    · next hne =>
      rw [if_neg hne] at hq
      exact hs q hq

theorem linkChange_keeps_presenceLaw (h : LinkChange s t) (hs : PresenceLaw s) : PresenceLaw t := by
  cases h with
  | mod slot f hw he =>
    intro q hq
    show (getLink (getRecord q s).slot (modLink slot f s)).effective = .present
    rw [getLink_modLink]
    split
    · next e =>
      rw [e]
      rcases he with he | he | he
      · rw [he, ← e]
        exact hs q hq
      · exact he
      · exact absurd e (he q hq)
    · exact hs q hq

theorem change_keeps_presenceLaw {k : Kind} (hk : k ≠ .boundary) (h : Change k s t)
    (hs : PresenceLaw s) : PresenceLaw t := by
  rcases h.table_cases hk with htable | htable | htable
  · exact tableChange_keeps_presenceLaw htable hs
  · rcases h.presence_cases hk with he | he | he
    · intro r hr
      rw [getRecord, htable] at hr ⊢
      rw [he]
      exact hs r hr
    · exact linkChange_keeps_presenceLaw he hs
    · intro r hr
      simp [getRecord, he, emptyTable, isLive, freeRecord] at hr
  · intro r hr
    simp [getRecord, htable, emptyTable, isLive, freeRecord] at hr

/-! ### The filters (R127) -/

/-- A filter stage moves its output toward its input and never past it (R127). -/
theorem natAbs_filterStage {a input output : Int} (h3 : 3 ≤ a) (h6 : a ≤ 6)
    (hi : input.natAbs ≤ 32767) (ho : output.natAbs ≤ 32767) :
    (filterStage a input output).natAbs ≤ 32767 := by
  unfold filterStage
  obtain rfl | rfl | rfl | rfl : a = 3 ∨ a = 4 ∨ a = 5 ∨ a = 6 := by omega
  all_goals omega

/-- The bounds of one station's filter outputs. -/
def FilterOk (st : StationState) : Prop := st.y1.natAbs ≤ 32767 ∧ st.y2.natAbs ≤ 32767

theorem filterOk_calm {x y : StationState} (h : Calm x y) (hx : FilterOk x) : FilterOk y := by
  refine ⟨?_, ?_⟩
  · rcases h.y1 with h | h <;> rw [h]
    · exact hx.1
    · decide
  · rcases h.y2 with h | h <;> rw [h]
    · exact hx.2
    · decide

theorem modAccount_filter (f : Frame) (g : Account → Account) (st : StationState) :
    (st.modAccount f g).y1 = st.y1 ∧ (st.modAccount f g).y2 = st.y2 := by
  unfold StationState.modAccount
  split
  · exact ⟨rfl, rfl⟩
  · split <;> exact ⟨rfl, rfl⟩

/-- A change of one station keeps what it keeps of that station. -/
theorem forall_modStation {P : StationState → Prop} {k : Station} {f : StationState → StationState}
    (h : P (f (getStation k s))) (hs : ∀ j, P (getStation j s)) (j : Station) :
    P (getStation j (modStation k f s)) := by
  rw [getStation_modStation]
  split
  · next e => exact e ▸ h
  · exact hs j

/-- A small change makes a change of the stations, of the frame or of a sweep, or leaves them, or is
a reset. -/
theorem Change.stations_cases {k : Kind} (hk : k ≠ .boundary) (h : Change k s t) :
    StationChange s t ∨ (k = .frame ∧ FrameChange s t) ∨ (k = .sweep ∧ SweepChange s t) ∨
      t.stations = s.stations ∨
      (k = .warm ∧ t.stations = s.stations.map (StationState.warm (frameOf s.now))) ∨
      (k = .cold ∧ t.stations = Vector.replicate 16 coldStation) := by
  cases h with
  | station h => exact .inl h
  | frame h => exact .inr (.inl ⟨rfl, h⟩)
  | sweep h => exact .inr (.inr (.inl ⟨rfl, h⟩))
  | table h => rw [h.frame]; exact .inr (.inr (.inr (.inl rfl)))
  | cache h => rw [h.frame]; exact .inr (.inr (.inr (.inl rfl)))
  | store h => rw [h.frame]; exact .inr (.inr (.inr (.inl rfl)))
  | prediction h => rw [h.frame]; exact .inr (.inr (.inr (.inl rfl)))
  | adapt h => rw [h.frame]; exact .inr (.inr (.inr (.inl rfl)))
  | suppression h => rw [h.frame]; exact .inr (.inr (.inr (.inl rfl)))
  | link h => rw [h.frame]; exact .inr (.inr (.inr (.inl rfl)))
  | port h => rw [h.frame]; exact .inr (.inr (.inr (.inl rfl)))
  | time h => rw [h.frame]; exact .inr (.inr (.inr (.inl rfl)))
  | window h => rw [h.frame]; exact .inr (.inr (.inr (.inl rfl)))
  | opened | taken | settings | flags => exact .inr (.inr (.inr (.inl rfl)))
  | warm => exact .inr (.inr (.inr (.inr (.inl ⟨rfl, rfl⟩))))
  | cold => exact .inr (.inr (.inr (.inr (.inr ⟨rfl, rfl⟩))))
  | boundary => exact absurd rfl hk

theorem stationChange_keeps_filters (h : StationChange s t)
    (hcoef : ∀ k, (stationSettings k s).coefficient ≤ 3) (hs : ∀ k, FilterOk (getStation k s))
    (j : Station) : FilterOk (getStation j t) := by
  cases h with
  | calm k f h => exact forall_modStation (filterOk_calm h (hs k)) hs j
  | calmAll f h =>
    show FilterOk (tget (s.stations.map f) j)
    rw [tget_map]
    exact filterOk_calm (h _) (hs j)
  | filter k r h =>
    have h3 : 3 ≤ a16 (stationSettings k s) := by unfold a16; omega
    have h6 : a16 (stationSettings k s) ≤ 6 := by
      have := hcoef k
      unfold a16
      omega
    have hy1 := natAbs_filterStage h3 h6 h (hs k).1
    exact forall_modStation ⟨hy1, natAbs_filterStage h3 h6 hy1 (hs k).2⟩ hs j

/-- A stored setting leaves a station's coefficient or brings it into its range (R135). -/
theorem coefficient_write {g x : Settings} {site : SettingSite} {v : SettingValue}
    (hw : g.write site v = some x) (h : ∀ k : Station, (tget g.stations k).coefficient ≤ 3)
    (k : Station) : (tget x.stations k).coefficient ≤ 3 := by
  cases site with
  | global n => cases hw; exact h k
  | target | slot =>
    obtain ⟨y, -, rfl⟩ := Option.map_eq_some_iff.mp hw
    exact h k
  | station j n =>
    obtain ⟨y, hy, rfl⟩ := Option.map_eq_some_iff.mp hw
    refine forall_tset (P := fun g : StationSettings => g.coefficient ≤ 3) h ?_ k
    cases n with
    | coefficient => cases hy; exact (clipNat_within 0 3 _ (by decide)).2
    | scale | threshold => cases hy; exact h j
    | sense =>
      obtain ⟨b, -, rfl⟩ := Option.map_eq_some_iff.mp hy
      exact h j
    | _ => cases hy

theorem change_keeps_filterLaw {k : Kind} (hk : k ≠ .boundary) (h : Change k s t)
    (hs : FilterLaw s) : FilterLaw t := by
  have hfilter : ∀ j, FilterOk (getStation j s) := fun j => ⟨(hs j).1, (hs j).2.1⟩
  have hcoef : ∀ j, (stationSettings j s).coefficient ≤ 3 := fun j => (hs j).2.2
  suffices (∀ j, FilterOk (getStation j t)) ∧ ∀ j, (stationSettings j t).coefficient ≤ 3 from
    fun j => ⟨(this.1 j).1, (this.1 j).2, this.2 j⟩
  constructor
  · intro j
    rcases h.stations_cases hk with h | ⟨-, h⟩ | ⟨-, h⟩ | h | ⟨-, h⟩ | ⟨-, h⟩
    · exact stationChange_keeps_filters h hcoef hfilter j
    · cases h with
      | shift i g => exact forall_modStation (P := FilterOk) (hfilter i) hfilter j
      | opened => exact hfilter j
    · cases h with
      | period i f p =>
        refine forall_modStation (P := FilterOk) ?_ hfilter j
        rw [FilterOk, (modAccount_filter f _ _).1, (modAccount_filter f _ _).2]
        exact hfilter i
      | residual i f r =>
        refine forall_modStation (P := FilterOk) ?_ hfilter j
        rw [FilterOk, (modAccount_filter f _ _).1, (modAccount_filter f _ _).2]
        exact hfilter i
    · rw [getStation, h]
      exact hfilter j
    · rw [getStation, h, tget_map]
      exact ⟨Nat.zero_le _, Nat.zero_le _⟩
    · rw [getStation, h, tget_replicate]
      exact ⟨Nat.zero_le _, Nat.zero_le _⟩
  · intro j
    rcases h.settings_cases hk with h | ⟨-, site, v, h⟩ | ⟨-, h⟩
    · rw [stationSettings, h]
      exact hcoef j
    · exact coefficient_write h hcoef j
    · rw [stationSettings, h]
      simp [defaultSettings, defaultStation]

end Sys2Proof.Machine
end

section
/-! PROOF. The frame accounts of the stations (R121): those of the present frame and the one before,
with their bounds, through sweeps and boundaries. -/

namespace Sys2Proof.Machine

variable {s t : State}

/-! ### One account -/

/-- An account with at most `lim` residuals and missing periods together, and its sum bounded by its
count: with a limit of 7 there is room for one more residual (R121, R126). -/
def AccountFits (lim : Nat) (a : Account) : Prop :=
  a.count + a.missing ≤ lim ∧ a.sum.natAbs ≤ 32767 * a.count

theorem missing_eq (a : Account) :
    a.missing = (indicesWhere a.taken fun b => !b).length := by
  rw [Account.missing, toList_eq_map_tget, List.filter_map, List.length_map]
  rfl

/-- A period taken is missing no more (R121). -/
theorem missing_take {a : Account} {i : Fin 8} (h : tget a.taken i = false) :
    (a.take i).missing + 1 = a.missing := by
  have := length_indicesWhere_tset a.taken i true fun b => !b
  rw [h] at this
  rw [missing_eq, missing_eq]
  exact this

theorem accountFits_take {a : Account} {i : Fin 8} {lim : Nat} (h : tget a.taken i = false)
    (ha : AccountFits (lim + 1) a) : AccountFits lim (a.take i) := by
  have := missing_take h
  obtain ⟨hcount, hsum⟩ := ha
  exact ⟨by show a.count + _ ≤ lim; omega, hsum⟩

theorem accountFits_add {a : Account} {r : Int} {lim : Nat} (hr : r.natAbs ≤ 32767)
    (ha : AccountFits lim a) : AccountFits (lim + 1) (a.add r) := by
  obtain ⟨hcount, hsum⟩ := ha
  refine ⟨?_, ?_⟩
  · show a.count + 1 + a.missing ≤ lim + 1
    omega
  · show (a.sum + r).natAbs ≤ 32767 * (a.count + 1)
    omega

theorem accountFits_clearResiduals {a : Account} {lim : Nat} (ha : AccountFits lim a) :
    AccountFits lim a.clearResiduals := by
  refine ⟨?_, Nat.zero_le _⟩
  show 0 + a.missing ≤ lim
  have := ha.1
  omega

theorem accountFits_fresh (f : Frame) (b : Bool) : AccountFits 8 (freshAccount f b) := by
  refine ⟨?_, Nat.zero_le _⟩
  rw [missing_eq]
  show 0 + ((List.finRange 8).filter _).length ≤ 8
  simpa using List.length_filter_le _ (List.finRange 8)

theorem AccountFits.mono {a : Account} {lim lim' : Nat} (h : lim ≤ lim') (ha : AccountFits lim a) :
    AccountFits lim' a :=
  ⟨ha.1.trans h, ha.2⟩

/-! ### A station's two accounts -/

/-- A station holds the accounts of frame g and of the one before; that of frame f has room for one
more residual than its bound gives where `f` is some. -/
structure AccountsOf (g : Frame) (room : Option Frame) (st : StationState) : Prop where
  newer_frame : st.newer.frame = g
  older_frame : st.older.frame = g - 1
  older_fits : AccountFits (if room = some st.older.frame then 7 else 8) st.older
  newer_fits : AccountFits (if room = some st.newer.frame then 7 else 8) st.newer

theorem frame_sub_one_ne (g : Frame) : g - 1 ≠ g := by
  bv_omega

theorem AccountsOf.weaken {g : Frame} {room : Option Frame} {st : StationState}
    (h : AccountsOf g room st) : AccountsOf g none st := by
  refine ⟨h.newer_frame, h.older_frame, h.older_fits.mono ?_, h.newer_fits.mono ?_⟩ <;>
  · split <;> simp

/-- A calm change keeps the accounts' frames and their room. -/
theorem AccountsOf.calm {g : Frame} {room : Option Frame} {x y : StationState} (hc : Calm x y)
    (h : AccountsOf g room x) : AccountsOf g room y := by
  have hkept : ∀ a b : Account, b = a ∨ b = a.clearResiduals → b.frame = a.frame ∧
      ∀ lim, AccountFits lim a → AccountFits lim b := by
    rintro a b (rfl | rfl)
    · exact ⟨rfl, fun _ h => h⟩
    · exact ⟨rfl, fun _ h => accountFits_clearResiduals h⟩
  obtain ⟨hof, hofits⟩ := hkept _ _ hc.older
  obtain ⟨hnf, hnfits⟩ := hkept _ _ hc.newer
  refine ⟨hnf.trans h.newer_frame, hof.trans h.older_frame, ?_, ?_⟩
  · rw [hof]
    exact hofits _ h.older_fits
  · rw [hnf]
    exact hnfits _ h.newer_fits

/-- A change of the account of a frame that gives it room, or takes the room it has. -/
theorem AccountsOf.modAccount {g f : Frame} {room room' : Option Frame} {F : Account → Account}
    {st : StationState} (h : AccountsOf g room st) (hF : ∀ a, (F a).frame = a.frame)
    (hrest : ∀ f' : Frame, f' ≠ f → (room = some f' ↔ room' = some f'))
    (hat : ∀ a, st.account f = some a → AccountFits (if room = some f then 7 else 8) a →
      AccountFits (if room' = some f then 7 else 8) (F a)) :
    AccountsOf g room' (st.modAccount f F) := by
  have hother : ∀ {a : Account}, a.frame ≠ f → AccountFits (if room = some a.frame then 7 else 8) a →
      AccountFits (if room' = some a.frame then 7 else 8) a := fun hne ha => by
    simpa only [hrest _ hne] using ha
  have hne : st.older.frame ≠ st.newer.frame := by
    rw [h.older_frame, h.newer_frame]
    exact frame_sub_one_ne g
  unfold StationState.modAccount
  unfold StationState.account at hat
  by_cases ho : st.older.frame = f
  · rw [if_pos ho] at hat ⊢
    refine ⟨h.newer_frame, (hF _).trans h.older_frame, ?_, hother (fun e => hne (ho.trans e.symm))
      h.newer_fits⟩
    show AccountFits (if room' = some (F st.older).frame then 7 else 8) (F st.older)
    rw [hF, ho]
    exact hat _ rfl (ho ▸ h.older_fits)
  · rw [if_neg ho] at hat ⊢
    by_cases hn : st.newer.frame = f
    · rw [if_pos hn] at hat ⊢
      refine ⟨(hF _).trans h.newer_frame, h.older_frame, hother ho h.older_fits, ?_⟩
      show AccountFits (if room' = some (F st.newer).frame then 7 else 8) (F st.newer)
      rw [hF, hn]
      exact hat _ rfl (hn ▸ h.newer_fits)
    · rw [if_neg hn]
      exact ⟨h.newer_frame, h.older_frame, hother ho h.older_fits, hother hn h.newer_fits⟩

/-- A period taken in the account of its frame leaves room for its residual (R121). -/
theorem AccountsOf.take {g f : Frame} {i : Fin 8} {a : Account} {st : StationState}
    (h : AccountsOf g none st) (ha : st.account f = some a) (hi : tget a.taken i = false) :
    AccountsOf g (some f) (st.modAccount f (Account.take i)) := by
  refine h.modAccount (fun _ => rfl) (fun f' hne => ?_) (fun b hb hfits => ?_)
  · simp [Ne.symm hne]
  · obtain rfl : a = b := Option.some.inj (ha.symm.trans hb)
    rw [if_pos rfl]
    exact accountFits_take hi hfits

/-- A residual added takes up the room left for it (R126). -/
theorem AccountsOf.add {g f : Frame} {r : Int} {st : StationState} (hr : r.natAbs ≤ 32767)
    (h : AccountsOf g (some f) st) : AccountsOf g none (st.modAccount f (Account.add r)) := by
  refine h.modAccount (fun _ => rfl) (fun f' hne => ?_) (fun b hb hfits => ?_)
  · simp [Ne.symm hne]
  · rw [if_pos rfl] at hfits
    exact accountFits_add hr hfits

/-- The accounts move on (R131). -/
theorem AccountsOf.shift {g : Frame} {st : StationState} (h : AccountsOf (g - 1) none st) :
    AccountsOf g none (st.shiftAccounts g) where
  newer_frame := rfl
  older_frame := h.newer_frame
  older_fits := h.newer_fits
  newer_fits := accountFits_fresh g true

/-! ### All stations -/

/-- Each station holds the accounts of a frame that is given for it, with room where it is given. -/
def StationsHold (g : Station → Frame) (room : Station → Option Frame) (s : State) : Prop :=
  ∀ k, AccountsOf (g k) (room k) (getStation k s)

/-- The changes of a station that a plain change brings are calm, but for the filter's step. -/
theorem stationChange_keeps_hold {g : Station → Frame} {room : Station → Option Frame}
    (h : StationChange s t) (hs : StationsHold g room s) : StationsHold g room t := by
  have hmod : ∀ (k : Station) (f : StationState → StationState),
      AccountsOf (g k) (room k) (f (getStation k s)) → StationsHold g room (modStation k f s) :=
    fun k f hf j => by
      rw [getStation_modStation]
      split
      · next e => exact e ▸ hf
      · exact hs j
  cases h with
  | calm k f h => exact hmod k f ((hs k).calm h)
  | calmAll f h =>
    intro j
    show AccountsOf (g j) (room j) (tget (s.stations.map f) j)
    rw [tget_map]
    exact (hs j).calm (h _)
  | filter k r h =>
    have hk := hs k
    exact hmod k _ ⟨hk.newer_frame, hk.older_frame, hk.older_fits, hk.newer_fits⟩

theorem change_keeps_hold {g : Station → Frame} {room : Station → Option Frame} {k : Kind}
    (hk : k = .plain ∨ k = .time ∨ k = .window) (h : Change k s t)
    (hs : StationsHold g room s) : StationsHold g room t := by
  have hb : k ≠ .boundary := by rcases hk with rfl | rfl | rfl <;> decide
  rcases h.stations_cases hb with h | ⟨rfl, -⟩ | ⟨rfl, -⟩ | h | ⟨rfl, -⟩ | ⟨rfl, -⟩
  · exact stationChange_keeps_hold h hs
  · simp at hk
  · simp at hk
  · intro j
    rw [getStation, h]
    exact hs j
  · simp at hk
  · simp at hk

theorem plain_keeps_hold {g : Station → Frame} {room : Station → Option Frame} (h : Plain s t)
    (hs : StationsHold g room s) : StationsHold g room t :=
  h.keeps (fun _ hk _ _ hc hs => change_keeps_hold (.inl (List.mem_singleton.mp hk)) hc hs) hs

/-- One station's change that brings it to other accounts, or to other room. -/
theorem hold_modStation {g g' : Station → Frame} {room room' : Station → Option Frame} {k : Station}
    {f : StationState → StationState} (hs : StationsHold g room s)
    (hk : AccountsOf (g' k) (room' k) (f (getStation k s)))
    (hrest : ∀ j, j ≠ k → g' j = g j ∧ room' j = room j) :
    StationsHold g' room' (modStation k f s) := fun j => by
  rw [getStation_modStation]
  split
  · next e => exact e ▸ hk
  · next e =>
    rw [(hrest j e).1, (hrest j e).2]
    exact hs j

/-! ### A sweep (R122, R123) -/

/-- Room for one more residual in one station's account of a frame. -/
def roomAt (k : Station) (f : Frame) (j : Station) : Option Frame := if j = k then some f else none

theorem hold_weaken {g : Station → Frame} {room : Station → Option Frame}
    (hs : StationsHold g room s) : StationsHold g (fun _ => none) s := fun j => (hs j).weaken

theorem takeResidual_plain (k : Station) (f : Frame) {r : Int} (hr : r.natAbs ≤ 32767) (s : State) :
    Plain (modStation k (StationState.modAccount f (Account.add r)) s) (takeResidual k f r s) := by
  unfold takeResidual
  dsimp only
  split
  · exact Plain.of (.station (.filter k r hr))
  · exact .refl _

/-- A residual taken uses the room that its period's taking has left. -/
theorem takeResidual_keeps_hold {g : Station → Frame} {k : Station} {f : Frame} {r : Int}
    (hr : r.natAbs ≤ 32767) (hs : StationsHold g (roomAt k f) s) :
    StationsHold g (fun _ => none) (takeResidual k f r s) := by
  refine plain_keeps_hold (takeResidual_plain k f hr s) (hold_modStation hs ?_ fun j hj => ?_)
  · have hk := hs k
    rw [roomAt, if_pos rfl] at hk
    exact hk.add hr
  · exact ⟨rfl, (if_neg hj).symm⟩

theorem takeMeasured_keeps_hold {g : Station → Frame} {k : Station} {u : Time} {p : Int × Int}
    (hs : StationsHold g (roomAt k (frameOf u)) s) :
    StationsHold g (fun _ => none) (takeMeasured k u p s) := by
  unfold takeMeasured
  split
  · exact takeResidual_keeps_hold (natAbs_residual_le _ _) hs
  · exact hold_weaken hs

theorem takeSample_keeps_hold {g : Station → Frame} {k : Station} {u : Time}
    (hs : StationsHold g (roomAt k (frameOf u)) s) :
    StationsHold g (fun _ => none) (takeSample k u s) := by
  unfold takeSample
  split
  · exact plain_keeps_hold (lockSample_plain k false s) (hold_weaken hs)
  · next p _ =>
    have hvalues := plain_keeps_hold (takeValues_plain k p s) hs
    split
    · exact plain_keeps_hold (lockSample_plain k true _) (takeMeasured_keeps_hold hvalues)
    · exact plain_keeps_hold (lockSample_plain k false _) (hold_weaken hvalues)

theorem offerSweep_keeps_hold {g : Station → Frame} (u : Time) (s : State) (k : Station)
    (hs : StationsHold g (fun _ => none) s) :
    StationsHold g (fun _ => none) (offerSweep u s k) := by
  unfold offerSweep
  split
  · exact hs
  · next a ha =>
    split
    · exact hs
    · next hi =>
      refine takeSample_keeps_hold (hold_modStation hs ?_ fun j hj => ⟨rfl, ?_⟩)
      · rw [roomAt, if_pos rfl]
        exact (hs k).take ha (Bool.not_eq_true _ ▸ hi)
      · exact if_neg hj

theorem offerSweeps_keep_hold {g : Station → Frame} (u : Time) (l : List Station) (s : State)
    (hs : StationsHold g (fun _ => none) s) :
    StationsHold g (fun _ => none) (l.foldl (offerSweep u) s) := by
  induction l generalizing s with
  | nil => exact hs
  | cons k l ih => exact ih _ (offerSweep_keeps_hold u s k hs)

theorem closeSweep_keeps_hold {g : Station → Frame} (stamp : Half) (s : State)
    (hs : StationsHold g (fun _ => none) s) :
    StationsHold g (fun _ => none) (closeSweep stamp s) := by
  refine plain_keeps_hold (clearPairing_plain _) ?_
  unfold sweep
  split
  · exact hs
  · split
    · exact plain_keeps_hold (latch_plain _ _) hs
    · exact offerSweeps_keep_hold _ _ s hs

/-! ### A boundary (R131) -/

/-- The frame of each station's accounts, once some stations' cycles have come. -/
def frameAfter (g : Frame) (done : List Station) (k : Station) : Frame :=
  if k ∈ done then g else g - 1

theorem closeFrame_plain (k : Station) (s : State) :
    Plain s (closeMissing k (getStation k s).older (closeMean k s)) :=
  (closeMean_plain k s).trans (closeMissing_plain k _ _)

theorem frameAfter_nil (g : Frame) : frameAfter g [] = fun _ => g - 1 :=
  funext fun _ => if_neg List.not_mem_nil

/-- A station's cycle moves its accounts on. -/
theorem stationCycle_keeps_hold {g : Frame} {done : List Station} {k : Station} (hk : k ∉ done)
    (hs : StationsHold (frameAfter g done) (fun _ => none) s) :
    StationsHold (frameAfter g (k :: done)) (fun _ => none) (stationCycle g s k) := by
  refine plain_keeps_hold (beginEvaluation_plain _ _ _) ?_
  have h := plain_keeps_hold (closeFrame_plain k s) hs
  refine hold_modStation h ?_ fun j hj => ⟨?_, rfl⟩
  · have hold := h k
    rw [frameAfter, if_neg hk] at hold
    rw [frameAfter, if_pos List.mem_cons_self]
    exact hold.shift
  · simp [frameAfter, hj]

theorem stationCycles_keep_hold {g : Frame} {l done : List Station} (hl : l.Nodup)
    (hd : ∀ k ∈ l, k ∉ done) (hs : StationsHold (frameAfter g done) (fun _ => none) s) :
    StationsHold (frameAfter g (l.reverse ++ done)) (fun _ => none) (l.foldl (stationCycle g) s) := by
  induction l generalizing done s with
  | nil => simpa using hs
  | cons k l ih =>
    obtain ⟨hk, hl⟩ := List.nodup_cons.mp hl
    have h := stationCycle_keeps_hold (hd k List.mem_cons_self) hs
    have := ih hl (fun j hj => ?_) h
    · simpa using this
    · rw [List.mem_cons, not_or]
      exact ⟨fun e => hk (e ▸ hj), hd j (List.mem_cons_of_mem _ hj)⟩

theorem boundaryActs_keep_hold {g : Frame} {acts : List BoundaryAct} {done : List Station}
    (ha : (cyclesOf acts).Nodup) (hd : ∀ k ∈ cyclesOf acts, k ∉ done)
    (hs : StationsHold (frameAfter g done) (fun _ => none) s) :
    StationsHold (frameAfter g ((cyclesOf acts).reverse ++ done)) (fun _ => none)
      (acts.foldl (boundaryAct g) s) := by
  induction acts generalizing done s with
  | nil => simpa [cyclesOf] using hs
  | cons a acts ih =>
    cases a with
    | cycle k =>
      obtain ⟨hk, hl⟩ := List.nodup_cons.mp ha
      have h := stationCycle_keeps_hold (hd k List.mem_cons_self) hs
      have := ih hl (fun j hj => ?_) h
      · simpa [cyclesOf, boundaryAct] using this
      · rw [List.mem_cons, not_or]
        exact ⟨fun e => hk (e ▸ hj), hd j (List.mem_cons_of_mem _ hj)⟩
    | predictionRead => exact ih ha hd (plain_keeps_hold (predictionRead_plain s) hs)
    | gainUpdate => exact ih ha hd (plain_keeps_hold (boundaryUpdate_plain g s) hs)

/-- A boundary moves every station's accounts on, whatever its schedule. -/
theorem takeFrameBoundary_hold {acts : List BoundaryAct} (ha : (cyclesOf acts).Nodup)
    (hs : StationsHold (fun _ => frameOf s.now - 1) (fun _ => none) s) :
    StationsHold (fun _ => frameOf s.now) (fun _ => none) (takeFrameBoundary acts s) := by
  have h1 := plain_keeps_hold (lowerCounts_plain { s with boundary := .taken }) hs
  have h2 := boundaryActs_keep_hold (g := frameOf s.now) (done := []) ha
    (fun _ _ => List.not_mem_nil) (by rw [frameAfter_nil]; exact h1)
  have h3 := plain_keeps_hold (takeSwap_plain _) h2
  have h4 := stationCycles_keep_hold (g := frameOf s.now) (l := cyclesAfter acts)
    ((List.nodup_finRange 16).filter _) (fun k hk => by
      have := (List.mem_filter.mp hk).2
      simpa using of_decide_eq_true this) h3
  intro k
  have hall : k ∈ (cyclesAfter acts).reverse ++ ((cyclesOf acts).reverse ++ []) := by
    by_cases hk : k ∈ cyclesOf acts <;> simp [cyclesAfter, hk]
  have := h4 k
  rw [frameAfter, if_pos hall] at this
  exact this

/-! ### The law (R121) -/

/-- The frame whose account is each station's newer one. -/
def newerFrame (s : State) : Frame :=
  if s.boundary = .reached then frameOf s.now - 1 else frameOf s.now

theorem frameAccountLaw_iff :
    FrameAccountLaw s ↔ StationsHold (fun _ => newerFrame s) (fun _ => none) s := by
  constructor
  · intro h k
    obtain ⟨hn, ho, hof, hnf⟩ := h k
    exact ⟨hn, ho.trans (by rw [hn]; rfl), hof, hnf⟩
  · intro h k
    obtain ⟨hn, ho, hof, hnf⟩ := h k
    exact ⟨hn, ho.trans (by rw [hn]), hof, hnf⟩

/-- Within a frame the advance of chassis time leaves the frame; at a multiple of 8 it moves on by
one (R151). -/
theorem frameOf_succ (n : Time) :
    frameOf (n + 1) = if (n + 1).toNat % 8 = 0 then frameOf n + 1 else frameOf n := by
  have hlt := n.isLt
  have hval : ∀ m : Time, (frameOf m).toNat = m.toNat / 8 := fun m => by
    have := m.isLt
    simp only [frameOf, BitVec.toNat_setWidth, BitVec.toNat_ushiftRight, Nat.shiftRight_eq_div_pow]
    omega
  have hsucc : (n + 1).toNat = (n.toNat + 1) % 2 ^ 32 := by simp
  apply BitVec.eq_of_toNat_eq
  split
  · next h =>
    have hadd : (frameOf n + 1).toNat = (n.toNat / 8 + 1) % 2 ^ 29 := by
      rw [BitVec.toNat_add, hval]
      rfl
    rw [hval, hadd, hsucc]
    omega
  · next h =>
    rw [hval, hval]
    omega

theorem timeChange_newerFrame (h : TimeChange s t) : newerFrame t = newerFrame s := by
  cases h with
  | quiet h => simp [newerFrame, h]
  | tick h =>
    unfold newerFrame
    dsimp only
    rw [h, frameOf_succ]
    split
    · simp
    · simp

/-- The frame of the newer accounts is read from the clock and the boundary's phase. -/
theorem newerFrame_of_clockPart (h : clockPart t = clockPart s) : newerFrame t = newerFrame s := by
  rw [newerFrame, clockPart_boundary h, clockPart_now h]
  rfl

theorem change_keeps_frameAccountLaw {k : Kind} (hframe : k ≠ .frame) (htaken : k ≠ .taken)
    (hsweep : k ≠ .sweep) (h : Change k s t) (hs : FrameAccountLaw s) : FrameAccountLaw t := by
  rw [frameAccountLaw_iff] at hs ⊢
  cases k with
  | plain =>
    rw [newerFrame_of_clockPart (clockPart_of_change (by simp) h)]
    exact change_keeps_hold (.inl rfl) h hs
  | window =>
    rw [newerFrame_of_clockPart (clockPart_of_change (by simp) h)]
    exact change_keeps_hold (.inr (.inr rfl)) h hs
  | time =>
    have hc : TimeChange s t := by cases h; assumption
    rw [timeChange_newerFrame hc]
    exact change_keeps_hold (.inr (.inl rfl)) h hs
  | opened | settings | flags => cases h; exact hs
  | frame => exact absurd rfl hframe
  | taken => exact absurd rfl htaken
  | sweep => exact absurd rfl hsweep
  | boundary =>
    cases h with | boundary acts _ hd hb =>
    have hnew : newerFrame (takeFrameBoundary acts s) = frameOf s.now := by
      have hnow := clockPart_now ((takeFrameBoundary_moves acts s).clockPart (by simp))
      rw [newerFrame, boundary_takeFrameBoundary, hnow]
      rfl
    rw [hnew]
    refine takeFrameBoundary_hold hd ?_
    rwa [newerFrame, if_pos hb] at hs
  | warm =>
    cases h with | warm cause _ hq =>
    intro k
    show AccountsOf _ _ (tget (s.stations.map _) k)
    rw [tget_map, newerFrame]
    have hq' : (warmed cause s).boundary ≠ .reached := by
      show s.boundary ≠ .reached
      simp [hq]
    rw [if_neg hq']
    exact ⟨rfl, rfl, accountFits_fresh _ _, accountFits_fresh _ _⟩
  | cold =>
    cases h with | cold cause cutOff =>
    have hnew : newerFrame (State.cold cause cutOff s.pending) = 0 := by
      simp [newerFrame, State.cold, frameOf]
    intro k
    show AccountsOf _ _ (tget (Vector.replicate 16 coldStation) k)
    rw [tget_replicate, hnew]
    exact ⟨rfl, rfl, accountFits_fresh _ _, accountFits_fresh _ _⟩

/-- Only a SWEEP-END takes a sweep (R122). -/
theorem sweep_mem_kindsOf {c : Instr} (h : Kind.sweep ∈ kindsOf c) : ∃ stamp, c = .sweepEnd stamp := by
  cases c with
  | sweepEnd stamp => exact ⟨stamp, rfl⟩
  | _ => exact absurd (List.elem_eq_true_of_mem h) Bool.false_ne_true

/-- No command brings a part of a boundary alone. -/
theorem not_mem_kindsOf (c : Instr) : Kind.frame ∉ kindsOf c ∧ Kind.taken ∉ kindsOf c := by
  constructor <;> intro h <;> cases c <;>
    exact absurd (List.elem_eq_true_of_mem h) Bool.false_ne_true

theorem moves_keep_frameAccountLaw {K : List Kind} (hK : ∀ k ∈ K, k ≠ .frame ∧ k ≠ .taken ∧ k ≠ .sweep)
    (h : Moves K s t) (hs : FrameAccountLaw s) : FrameAccountLaw t :=
  h.keeps (fun k hk _ _ hc hs => change_keeps_frameAccountLaw (hK k hk).1 (hK k hk).2.1 (hK k hk).2.2
    hc hs) hs

theorem closeSweep_keeps_frameAccountLaw (stamp : Half) (s : State) (hs : FrameAccountLaw s) :
    FrameAccountLaw (closeSweep stamp s) := by
  rw [frameAccountLaw_iff] at hs ⊢
  rw [newerFrame_of_clockPart ((closeSweep_moves stamp s).clockPart (by simp))]
  exact closeSweep_keeps_hold stamp s hs

/-- Every command keeps the accounts those of this frame and the last. -/
theorem exec_keeps_frameAccountLaw {c : Instr} (h : exec c s = .next t) (hs : FrameAccountLaw s) :
    FrameAccountLaw t := by
  by_cases hsweep : Kind.sweep ∈ kindsOf c
  · obtain ⟨stamp, rfl⟩ := sweep_mem_kindsOf hsweep
    have hf : ∀ s, FrameAccountLaw s →
        FrameAccountLaw (closeSweep stamp (takeBoundary (takeMoment s))) := fun s hs =>
      closeSweep_keeps_frameAccountLaw stamp _ (moves_keep_frameAccountLaw (by simp [dueKinds])
        (((takeMoment_plain s).mono (by decide)).trans (takeBoundary_moves _)) hs)
    have hopened : FrameAccountLaw (endColdReset s) := hs
    have h : onPart id (fun s => closeSweep stamp (takeBoundary (takeMoment s))) s = .next t := h
    rcases onPart_cases id (fun s => closeSweep stamp (takeBoundary (takeMoment s))) s with
      ⟨-, e⟩ | ⟨-, e⟩ | ⟨-, -, -, e⟩ <;> cases e.symm.trans h
    · exact hf s hs
    · exact hf _ hopened
    · exact hs
  · refine moves_keep_frameAccountLaw (fun k hk => ⟨?_, ?_, ?_⟩) (exec_moves c h) hs
    · exact fun e => (not_mem_kindsOf c).1 (e ▸ hk)
    · exact fun e => (not_mem_kindsOf c).2 (e ▸ hk)
    · exact fun e => hsweep (e ▸ hk)

/-- Settles O10: the filters' stages never pass their input, a taken period leaves room for its one
residual, and a boundary moves every station's accounts on exactly once. -/
theorem stepsKeepTheStationLaws : Obligations.StepsKeepTheStationLaws := by
  unfold Obligations.StepsKeepTheStationLaws
  exact ⟨fun s t hs h => step_keeps (P := FilterLaw) (fun _ _ h => h)
      (fun c s t h => exec_keeps (fun k s t => change_keeps_filterLaw) h) h hs,
    fun s t hs h => step_keeps (P := FrameAccountLaw) (fun _ _ h => h)
      (fun c s t h => exec_keeps_frameAccountLaw h) h hs⟩

end Sys2Proof.Machine
end

section
/-! PROOF. The windows of a frame (R152, R71): their order, their places, and the evaluation that a
window waits for, under every change but the windows' own. -/

namespace Sys2Proof.Machine

variable {s t : State}

/-! ### The law by its parts -/

/-- The windows below window w are over. -/
def OverBelow (w : Nat) (s : State) : Prop :=
  ∀ x : Slot, position x < w → (getLink x s).window = .over

/-- A window that has moved on finds every window before it over (R152). -/
def WindowOrder (s : State) : Prop :=
  ∀ y : Slot, (getLink y s).window ≠ .upstream none → OverBelow (position y) s

/-- On a running part, in a frame that has begun, a place of window w has come (R152). -/
def PlaceReached (p : Place) (w : Nat) (s : State) : Prop :=
  s.coldReset = none → s.boundary ≠ .reached → p.bit w < periodEnd (periodOf s.now).val

/-- No window has moved on before its place (R152). -/
def WindowPlaces (s : State) : Prop :=
  ∀ y : Slot, ∀ p ∈ (getLink y s).window.place, PlaceReached p (position y) s

/-- An evaluation of a slot that can end: it holds the slot's part, and its bank is fixed or a read
is to be made, which fixes it (R63, R71). -/
def Evaluation.awaited (e : Evaluation) : Bool :=
  e.snap.slotPart.isSome && (decide (e.waiting ≠ []) || e.bank.isSome)

/-- The evaluation that a window waits for is in flight (R71). -/
def WindowEvaluations (s : State) : Prop :=
  ∀ slot : Slot, (getLink slot s).window.isEvaluating = true →
    (findEvaluation (slotTarget slot) s).any Evaluation.awaited = true

theorem windowLaw_iff : WindowLaw s ↔ WindowOrder s ∧ WindowPlaces s ∧ WindowEvaluations s := by
  constructor
  · rintro ⟨horder, hplace, heval⟩
    exact ⟨horder, fun y p hp hc hb => of_decide_eq_true (hplace hc hb y p hp), heval⟩
  · rintro ⟨horder, hplace, heval⟩
    exact ⟨horder, fun hc hb y p hp => decide_eq_true (hplace y p hp hc hb), heval⟩

/-- Windows that all stand at the beginning of their upstream phase obey the law. -/
theorem windowLaw_of_begun (h : ∀ x : Slot, (getLink x s).window = .upstream none) :
    WindowLaw s := by
  refine windowLaw_iff.mpr ⟨fun y hy => absurd (h y) hy, fun y p hp => ?_, fun y hy => ?_⟩
  · rw [h y] at hp
    cases hp
  · rw [h y] at hy
    cases hy

/-! ### A block that becomes ready -/

/-- A window stands, or the block it waits for has become ready (R71, R75). -/
def WindowStep (w w' : Window) : Prop :=
  w' = w ∨ ∃ m b, w = .feedPhase m .evaluating ∧ w' = .feedPhase m (.ready b)

theorem WindowStep.refl (w : Window) : WindowStep w w := .inl rfl

theorem WindowStep.ready (b : Block) (w : Window) : WindowStep w (w.ready b) := by
  unfold Window.ready
  split
  · next m => exact .inr ⟨m, b, rfl, rfl⟩
  · exact .inl rfl

theorem WindowStep.abandon (b : Block) (w : Window) : WindowStep w (w.abandon b) := by
  unfold Window.abandon
  split
  · next m => exact .inr ⟨m, b, rfl, rfl⟩
  · exact .inl rfl

theorem isEvaluating_ready (b : Block) (w : Window) : (w.ready b).isEvaluating = false := by
  unfold Window.ready
  split
  · rfl
  · next h =>
    cases w with
    | feedPhase m b =>
      cases b with
      | evaluating => exact absurd rfl (h m)
      | ready b => rfl
    | _ => rfl

theorem isEvaluating_abandon (b : Block) (w : Window) : (w.abandon b).isEvaluating = false := by
  unfold Window.abandon
  split
  · rfl
  · next h =>
    cases w with
    | feedPhase m b =>
      cases b with
      | evaluating => exact absurd rfl (h m)
      | ready b => rfl
    | _ => rfl

theorem WindowStep.place {w w' : Window} (h : WindowStep w w') : w'.place = w.place := by
  rcases h with rfl | ⟨m, b, rfl, rfl⟩ <;> rfl

theorem WindowStep.isUpstream {w w' : Window} (h : WindowStep w w') :
    w'.isUpstream = w.isUpstream := by
  rcases h with rfl | ⟨m, b, rfl, rfl⟩ <;> rfl

theorem WindowStep.upstream_iff {w w' : Window} (h : WindowStep w w') (m : Option Answer) :
    w' = .upstream m ↔ w = .upstream m := by
  rcases h with rfl | ⟨m', b, rfl, rfl⟩ <;> simp

theorem WindowStep.over_iff {w w' : Window} (h : WindowStep w w') : w' = .over ↔ w = .over := by
  rcases h with rfl | ⟨m, b, rfl, rfl⟩ <;> simp

theorem WindowStep.eq_of_isEvaluating {w w' : Window} (h : WindowStep w w')
    (he : w'.isEvaluating = true) : w' = w := by
  rcases h with rfl | ⟨m, b, rfl, rfl⟩
  · rfl
  · cases he

theorem WindowStep.trans {w w' w'' : Window} (h : WindowStep w w') (h' : WindowStep w' w'') :
    WindowStep w w'' := by
  rcases h with rfl | ⟨m, b, rfl, rfl⟩
  · exact h'
  · rcases h' with rfl | ⟨m', b', he, rfl⟩
    · exact .inr ⟨m, b, rfl, rfl⟩
    · cases he

theorem windowOrder_of_steps
    (h : ∀ x, WindowStep (getLink x s).window (getLink x t).window) (hs : WindowOrder s) :
    WindowOrder t := fun y hy x hx =>
  (h x).over_iff.mpr (hs y (fun e => hy (((h y).upstream_iff none).mpr e)) x hx)

theorem windowPlaces_of_steps
    (h : ∀ x, WindowStep (getLink x s).window (getLink x t).window)
    (hreach : ∀ p w, PlaceReached p w s → PlaceReached p w t) (hs : WindowPlaces s) :
    WindowPlaces t := fun y p hp => hreach _ _ (hs y p ((h y).place ▸ hp))

theorem placeReached_of_clockPart {p : Place} {w : Nat} (h : clockPart t = clockPart s)
    (hs : PlaceReached p w s) : PlaceReached p w t := by
  unfold PlaceReached
  rw [clockPart_coldReset h, clockPart_boundary h, clockPart_now h]
  exact hs

/-! ### The evaluations in flight -/

/-- The evaluation found for a target once one has been put among those in flight. -/
theorem find_insertEvaluation (e : Evaluation) (u : Target) (l : List Evaluation) :
    (insertEvaluation e l).find? (fun x => decide (x.target = u)) =
      if e.target = u then some e else l.find? fun x => decide (x.target = u) := by
  induction l with
  | nil =>
    by_cases he : e.target = u <;> simp [insertEvaluation, he]
  | cons x l ih =>
    unfold insertEvaluation
    split
    · by_cases he : e.target = u <;> simp [List.find?_cons, he]
    · next hlt =>
      split
      · next heq =>
        by_cases he : e.target = u
        · simp [he]
        · have hx : ¬ x.target = u := heq ▸ he
          simp [he, hx]
      · next hne =>
        by_cases he : e.target = u
        · have hx : ¬ x.target = u := fun hx => hne (he.trans hx.symm)
          rw [List.find?_cons_of_neg (by simpa using hx), ih, if_pos he, if_pos he]
        · rw [List.find?_cons, List.find?_cons, ih, if_neg he, if_neg he]

/-- A new evaluation of a slot can end (R63, R70, R73). -/
theorem newEvaluation_awaited (slot : Slot) (f : Frame) (s : State) :
    (newEvaluation (slotTarget slot) f s).awaited = true := by
  have hslot : slotOfTarget (slotTarget slot) = some slot := below_eq_some.mpr rfl
  unfold Evaluation.awaited newEvaluation
  simp only [snapshot, hslot, Option.map_some, Option.isSome_some, Bool.true_and]
  split <;> simp_all

theorem granted_awaited {e : Evaluation} {c : CouplingStore} {source : Slot} {more : List Slot}
    (h : e.awaited = true) : (e.granted c source more).awaited = true := by
  simp only [Evaluation.awaited, Bool.and_eq_true] at h
  simp [Evaluation.awaited, Evaluation.granted, h.1]

theorem readAll_awaited {e : Evaluation} {c : CouplingStore} (h : e.awaited = true) :
    (e.readAll c).awaited = true := by
  unfold Evaluation.readAll
  split
  · exact h
  · simp only [Evaluation.awaited, Bool.and_eq_true] at h
    simp [Evaluation.awaited, h.1]

/-- A grant leaves the evaluation found for a target one that can end. -/
theorem find_grantRead_awaited {c : CouplingStore} {u : Target} {l : List Evaluation}
    (h : (l.find? fun x => decide (x.target = u)).any Evaluation.awaited = true) :
    ((grantRead c l).find? fun x => decide (x.target = u)).any Evaluation.awaited = true := by
  induction l with
  | nil => exact h
  | cons e l ih =>
    unfold grantRead
    by_cases he : e.target = u
    · rw [List.find?_cons_of_pos (by simpa using he)] at h
      split
      · rw [List.find?_cons_of_pos (by simp [Evaluation.granted, he])]
        exact granted_awaited h
      · rw [List.find?_cons_of_pos (by simpa using he)]
        exact h
    · rw [List.find?_cons_of_neg (by simpa using he)] at h
      split
      · rwa [List.find?_cons_of_neg (by simp [Evaluation.granted, he])]
      · rw [List.find?_cons_of_neg (by simpa using he)]
        exact ih h

/-- Evaluations changed one by one, with their targets kept. -/
theorem find_map_evaluations {F : Evaluation → Evaluation} (hF : ∀ e, (F e).target = e.target)
    (u : Target) (l : List Evaluation) :
    (l.map F).find? (fun x => decide (x.target = u)) =
      (l.find? fun x => decide (x.target = u)).map F := by
  rw [List.find?_map]
  simp [hF]

/-- The evaluation found for a target once another target's has left. -/
theorem find_filter_evaluations {u v : Target} (h : u ≠ v) (l : List Evaluation) :
    (l.filter fun x => decide (x.target ≠ v)).find? (fun x => decide (x.target = u)) =
      l.find? fun x => decide (x.target = u) := by
  induction l with
  | nil => rfl
  | cons e l ih =>
    by_cases hv : e.target = v
    · have hu : ¬ e.target = u := fun hu => h (hu.symm.trans hv)
      rw [List.filter_cons_of_neg (by simpa using hv), List.find?_cons_of_neg (by simpa using hu), ih]
    · rw [List.filter_cons_of_pos (by simpa using hv), List.find?_cons, List.find?_cons, ih]

/-! ### Plain changes -/

/-- An evaluation's end makes its own slot's block ready, and reaches no other window (R71). -/
theorem getLink_endInto (e : Evaluation) (bank : BankName) (s : State) (x : Slot) :
    getLink x (endInto e bank s) =
      if slotTarget x = e.target then
        match e.snap.slotPart with
        | some p => { getLink x s with
            window := (getLink x s).window.ready
              (slotBlock p (predictedSums e) (partialOf e)) }
        | none => getLink x s
      else getLink x s := by
  have hslot : ∀ slot : Slot, slotOfTarget e.target = some slot ↔ slotTarget slot = e.target :=
    fun slot => by
      rw [slotOfTarget, below_eq_some, Fin.ext_iff]
      exact eq_comm
  unfold endInto
  dsimp only
  split
  · next slot p hs hp =>
    rw [getLink_modLink, hp]
    have he := (hslot slot).mp hs
    by_cases hx : x = slot
    · rw [if_pos hx, if_pos (by rw [hx, he])]
      rfl
    · rw [if_neg hx, if_neg fun h => hx ?_]
      · rfl
      · exact Option.some.inj (((hslot x).mpr h).symm.trans hs)
  · next hno =>
    split
    · next hx =>
      split
      · next p hp => exact absurd hp (hno x p ((hslot x).mpr hx))
      · rfl
    · rfl

theorem predictionChange_window (h : PredictionChange s t) (x : Slot) :
    WindowStep (getLink x s).window (getLink x t).window := by
  cases h with
  | ended e bank hf hw hb =>
    rw [getLink_endInto]
    split
    · split
      · exact .ready _ _
      · exact .refl _
    · exact .refl _
  | abandoned slot =>
    rw [getLink_modLink]
    split
    · exact .abandon _ _
    · exact .refl _
  | begin | read | reads | emptied | gaps => exact .refl _

theorem slotTarget_ne {x y : Slot} (h : x ≠ y) : slotTarget x ≠ slotTarget y := fun e =>
  h (Fin.ext (Fin.mk.inj e))

theorem slotTarget_inj {x y : Slot} (h : slotTarget x = slotTarget y) : x = y :=
  Fin.ext (Fin.mk.inj h)

theorem predictionChange_keeps_windowEvaluations (h : PredictionChange s t)
    (hs : WindowEvaluations s) : WindowEvaluations t := by
  intro slot hslot
  have heq := (predictionChange_window h slot).eq_of_isEvaluating hslot
  have hold := hs slot (heq ▸ hslot)
  unfold findEvaluation at hold ⊢
  cases h with
  | begin u f =>
    show ((insertEvaluation (newEvaluation u f s) s.prediction.evaluations).find? _).any _ = true
    rw [find_insertEvaluation]
    split
    · next he =>
      obtain rfl : u = slotTarget slot := he
      exact newEvaluation_awaited slot f s
    · exact hold
  | read => exact find_grantRead_awaited hold
  | reads u =>
    show ((s.prediction.evaluations.map _).find? _).any _ = true
    rw [find_map_evaluations (fun e => by split; exacts [(readAll_spec _ e).1, rfl])]
    rcases hfind : s.prediction.evaluations.find? _ with _ | e
    · rw [hfind] at hold
      cases hold
    · rw [hfind] at hold
      show Evaluation.awaited (if _ then _ else _) = true
      split
      · exact readAll_awaited hold
      · exact hold
  | ended e bank hf hw hb =>
    by_cases he : slotTarget slot = e.target
    · have hfe : s.prediction.evaluations.find? (fun x => decide (x.target = slotTarget slot)) =
          some e := he ▸ hf
      rw [hfe] at hold
      rw [getLink_endInto, if_pos he] at hslot
      split at hslot
      · rw [isEvaluating_ready] at hslot
        cases hslot
      · next hnone =>
        simp [Evaluation.awaited, hnone] at hold
    · rw [endInto_prediction]
      show ((s.prediction.evaluations.filter _).find? _).any _ = true
      rw [find_filter_evaluations he]
      exact hold
  | abandoned x =>
    by_cases hx : slot = x
    · rw [getLink_modLink, if_pos hx] at hslot
      exact absurd hslot (by rw [isEvaluating_abandon]; decide)
    · show ((s.prediction.evaluations.filter _).find? _).any _ = true
      rw [find_filter_evaluations (slotTarget_ne hx)]
      exact hold
  | emptied | gaps => exact hold

/-- A plain change leaves each window, or makes the block it waits for ready. -/
theorem plainChange_window (h : Change .plain s t) (x : Slot) :
    WindowStep (getLink x s).window (getLink x t).window := by
  cases h with
  | prediction h => exact predictionChange_window h x
  | link h =>
    cases h with
    | mod slot f hw he =>
      rw [getLink_modLink]
      split
      · next e => exact .inl (by rw [e]; exact hw)
      · exact .refl _
  | table h => rw [h.frame]; exact .refl _
  | cache h => rw [h.frame]; exact .refl _
  | store h => rw [h.frame]; exact .refl _
  | adapt h => rw [h.frame]; exact .refl _
  | station h => rw [h.frame]; exact .refl _
  | suppression h => rw [h.frame]; exact .refl _
  | port h => rw [h.frame]; exact .refl _

/-- The law of the evaluations waited for is read from windows and evaluations alone. -/
theorem windowEvaluations_of_same
    (hw : ∀ x, WindowStep (getLink x s).window (getLink x t).window)
    (he : t.prediction.evaluations = s.prediction.evaluations) (hs : WindowEvaluations s) :
    WindowEvaluations t := fun slot hslot => by
  rw [findEvaluation, he]
  exact hs slot ((hw slot).eq_of_isEvaluating hslot ▸ hslot)

theorem plainChange_keeps_windowEvaluations (h : Change .plain s t) (hs : WindowEvaluations s) :
    WindowEvaluations t := by
  have hw := plainChange_window h
  cases h with
  | prediction h => exact predictionChange_keeps_windowEvaluations h hs
  | link h => exact windowEvaluations_of_same hw (by rw [h.frame]) hs
  | table h => exact windowEvaluations_of_same hw (by rw [h.frame]) hs
  | cache h => exact windowEvaluations_of_same hw (by rw [h.frame]) hs
  | store h => exact windowEvaluations_of_same hw (by rw [h.frame]) hs
  | adapt h => exact windowEvaluations_of_same hw (by rw [h.frame]) hs
  | station h => exact windowEvaluations_of_same hw (by rw [h.frame]) hs
  | suppression h => exact windowEvaluations_of_same hw (by rw [h.frame]) hs
  | port h => exact windowEvaluations_of_same hw (by rw [h.frame]) hs

theorem plainChange_keeps_windowLaw (h : Change .plain s t) (hs : WindowLaw s) : WindowLaw t := by
  obtain ⟨horder, hplace, heval⟩ := windowLaw_iff.mp hs
  have hclock := clockPart_of_change (.inl rfl) h
  exact windowLaw_iff.mpr ⟨windowOrder_of_steps (plainChange_window h) horder,
    windowPlaces_of_steps (plainChange_window h) (fun _ _ => placeReached_of_clockPart hclock) hplace,
    plainChange_keeps_windowEvaluations h heval⟩

theorem plain_keeps_windowLaw (h : Plain s t) (hs : WindowLaw s) : WindowLaw t :=
  h.keeps (fun k hk s t hc hs => by
    obtain rfl := List.mem_singleton.mp hk
    exact plainChange_keeps_windowLaw hc hs) hs

theorem plain_window (h : Plain s t) (x : Slot) :
    WindowStep (getLink x s).window (getLink x t).window := by
  induction h with
  | refl => exact .refl _
  | tail _ hc ih =>
    obtain ⟨k, hk, hc⟩ := hc
    obtain rfl := List.mem_singleton.mp hk
    exact ih.trans (plainChange_window hc x)

/-! ### The other changes -/

/-- A place that has come stays so until the frame ends (R151, R152). -/
theorem timeChange_keeps_placeReached {p : Place} {w : Nat} (h : TimeChange s t)
    (hs : PlaceReached p w s) : PlaceReached p w t := by
  cases h with
  | quiet h => exact fun hc _ => hs hc h
  | tick h =>
    intro hc hb
    have hne : ¬ (s.now + 1).toNat % 8 = 0 := fun e => hb (if_pos e)
    have hold := hs hc (by rw [h]; decide)
    have hsucc : (s.now + 1).toNat = (s.now.toNat + 1) % 2 ^ 32 := by simp
    have hlt := s.now.isLt
    show p.bit w < periodEnd (periodOf (s.now + 1)).val
    refine lt_of_lt_of_le hold (Nat.mul_le_mul_left _ (Nat.succ_le_succ ?_))
    show s.now.toNat % 8 ≤ (s.now + 1).toNat % 8
    omega

theorem change_keeps_windowLaw {k : Kind} (hwindow : k ≠ .window) (hframe : k ≠ .frame)
    (htaken : k ≠ .taken) (h : Change k s t) (hs : WindowLaw s) : WindowLaw t := by
  obtain ⟨horder, hplace, heval⟩ := windowLaw_iff.mp hs
  cases k with
  | plain => exact plainChange_keeps_windowLaw h hs
  | window => exact absurd rfl hwindow
  | frame => exact absurd rfl hframe
  | taken => exact absurd rfl htaken
  | time =>
    have hc : TimeChange s t := by cases h; assumption
    have hw : ∀ x, WindowStep (getLink x s).window (getLink x t).window := fun x => by
      rw [hc.frame]
      exact .refl _
    exact windowLaw_iff.mpr ⟨windowOrder_of_steps hw horder,
      windowPlaces_of_steps hw (fun _ _ => timeChange_keeps_placeReached hc) hplace,
      windowEvaluations_of_same hw (by rw [hc.frame]) heval⟩
  | settings | flags => cases h; exact hs
  | sweep =>
    have hc : SweepChange s t := by cases h; assumption
    rw [hc.frame]
    exact hs
  | opened =>
    cases h
    refine windowLaw_of_begun fun x => ?_
    show (tget (s.links.slots.map openWindow) x).window = _
    rw [tget_map]
    rfl
  | boundary =>
    cases h with | boundary acts _ hd hb =>
    refine windowLaw_of_begun fun x => ?_
    unfold takeFrameBoundary openFrame getLink
    dsimp only
    rw [tget_map]
    rfl
  | warm =>
    cases h with | warm cause _ hq =>
    have hlink : ∀ x, (getLink x (warmed cause s)).window = (getLink x s).window.abandon cutBlock :=
      fun x => by
        show (tget (s.links.slots.map LinkSlot.warm) x).window = _
        rw [tget_map]
        rfl
    have hw : ∀ x, WindowStep (getLink x s).window (getLink x (warmed cause s)).window := fun x => by
      rw [hlink]
      exact .abandon _ _
    refine windowLaw_iff.mpr ⟨windowOrder_of_steps hw horder,
      windowPlaces_of_steps hw (fun _ _ h => h) hplace, fun slot hslot => ?_⟩
    rw [hlink, isEvaluating_abandon] at hslot
    cases hslot
  | cold =>
    cases h with | cold cause cutOff =>
    have hover : ∀ x, (getLink x (State.cold cause cutOff s.pending)).window = .over := fun x => by
      simp [getLink, State.cold, coldLinks, coldLinkSlot]
    refine windowLaw_iff.mpr ⟨fun y _ x _ => hover x, fun y p _ hc => ?_, fun y hy => ?_⟩
    · cases hc
    · rw [hover] at hy
      cases hy

theorem moves_keep_windowLaw {K : List Kind}
    (hK : ∀ k ∈ K, k ≠ .window ∧ k ≠ .frame ∧ k ≠ .taken) (h : Moves K s t) (hs : WindowLaw s) :
    WindowLaw t :=
  h.keeps (fun k hk _ _ hc hs =>
    change_keeps_windowLaw (hK k hk).1 (hK k hk).2.1 (hK k hk).2.2 hc hs) hs

end Sys2Proof.Machine
end

section
/-! PROOF. The windows' own operations (R152, R153): the end of upstream phases and of evaluations,
the FEEDs, the running of windows in order, and messages, with what each leaves of the windows; and
the law of the windows under every command. -/

namespace Sys2Proof.Machine

variable {s t : State}

/-! ### One window moves on -/

/-- A window that moves on where the windows before it are over and its place has come. -/
theorem windowLaw_move {slot : Slot} (hs : WindowLaw s) (hbelow : OverBelow (position slot) s)
    (hrest : ∀ x, x ≠ slot → (getLink x t).window = (getLink x s).window)
    (hclock : clockPart t = clockPart s)
    (hover : (getLink slot s).window = .over → (getLink slot t).window = .over)
    (hplace : ∀ p ∈ (getLink slot t).window.place, PlaceReached p (position slot) s)
    (heval : WindowEvaluations t) : WindowLaw t := by
  obtain ⟨horder, hplaces, -⟩ := windowLaw_iff.mp hs
  have hkeeps : ∀ x, (getLink x s).window = .over → (getLink x t).window = .over := fun x hx => by
    by_cases he : x = slot
    · exact he ▸ hover (he ▸ hx)
    · rw [hrest x he]
      exact hx
  refine windowLaw_iff.mpr ⟨fun y hy x hx => hkeeps x ?_, fun y p hp => ?_, heval⟩
  · by_cases he : y = slot
    · exact hbelow x (he ▸ hx)
    · exact horder y (hrest y he ▸ hy) x hx
  · refine placeReached_of_clockPart hclock ?_
    by_cases he : y = slot
    · subst he
      exact hplace p hp
    · rw [hrest y he] at hp
      exact hplaces y p hp

/-! ### What becomes of the links -/

theorem getLink_enterAbsent_of_ne {slot x : Slot} (h : x ≠ slot) (s : State) :
    getLink x (enterAbsent slot s) = getLink x s := by
  show getLink x (modLink slot _ _) = _
  rw [getLink_modLink, if_neg h]
  exact getLink_purgeSlot slot x s

/-- A change of presence reaches its own slot's link alone. -/
theorem getLink_changePresence_of_ne {slot x : Slot} (h : x ≠ slot) (f : LinkSlot → LinkSlot)
    (s : State) : getLink x (changePresence slot f s) = getLink x s := by
  have hmod : getLink x (modLink slot f s) = getLink x s := by rw [getLink_modLink, if_neg h]
  rcases changePresence_cases slot f s with ⟨-, hs⟩ | ⟨-, -, hs⟩ | ⟨-, -, hs⟩
  · rw [hs, hmod]
  · rw [hs, getLink_enterAbsent_of_ne h, hmod]
  · rw [hs]
    exact hmod

@[simp] theorem getLink_fetchStart (x : Slot) (s : State) :
    getLink x (fetchStart s) = getLink x s := by
  unfold fetchStart
  split <;> rfl

@[simp] theorem getLink_beginEvaluation (u : Target) (f : Frame) (x : Slot) (s : State) :
    getLink x (beginEvaluation u f s) = getLink x s := rfl

@[simp] theorem getLink_readThrough (u : Target) (x : Slot) (s : State) :
    getLink x (readThrough u s) = getLink x s := by
  unfold readThrough
  split <;> rfl

theorem getLink_evaluationEnd_of_ne {u : Target} {x : Slot} (h : slotTarget x ≠ u) (s : State) :
    getLink x (evaluationEnd u s) = getLink x s := by
  unfold evaluationEnd
  split
  · next e he =>
    unfold endOf
    split
    · rw [getLink_endInto, if_neg (by rw [findEvaluation_target he]; exact h)]
    · rfl
  · rfl

theorem getLink_finishEvaluation_of_ne {u : Target} {x : Slot} (h : slotTarget x ≠ u) (s : State) :
    getLink x (finishEvaluation u s) = getLink x s := by
  unfold finishEvaluation
  split
  · rw [getLink_evaluationEnd_of_ne h, getLink_readThrough]
  · rfl

/-! ### The end of an upstream phase -/

theorem find_beginEvaluation (u v : Target) (f : Frame) (s : State) :
    findEvaluation v (beginEvaluation u f s) =
      if u = v then some (newEvaluation u f s) else findEvaluation v s :=
  find_insertEvaluation (newEvaluation u f s) v s.prediction.evaluations

/-- The end of an upstream phase reaches its own slot's link alone. -/
theorem getLink_upstreamPhaseEnd_of_ne {slot x : Slot} (h : x ≠ slot) (s : State) :
    getLink x (upstreamPhaseEnd slot s) = getLink x s := by
  unfold upstreamPhaseEnd
  split
  · unfold beginSlotEvaluation
    split
    · rw [setFeedPhase, getLink_modLink, if_neg h, getLink_beginEvaluation,
        getLink_changePresence_of_ne h]
    · rw [setFeedPhase, getLink_modLink, if_neg h, getLink_changePresence_of_ne h]
  · rfl

theorem getLink_setFeedPhase_self (slot : Slot) (m : Option Answer) (b : PendingBlock) (s : State) :
    (getLink slot (setFeedPhase slot m b s)).window = .feedPhase m b := by
  rw [setFeedPhase, getLink_modLink, if_pos rfl]

/-- After its upstream phase a window waits for its FEED. -/
theorem window_beginSlotEvaluation (slot : Slot) (m : Option Answer) (s : State) :
    ∃ b, (getLink slot (beginSlotEvaluation slot m s)).window = .feedPhase m b := by
  unfold beginSlotEvaluation
  split
  · exact ⟨_, getLink_setFeedPhase_self ..⟩
  · exact ⟨_, getLink_setFeedPhase_self ..⟩

theorem window_upstreamPhaseEnd {slot : Slot} {m : Option Answer}
    (h : (getLink slot s).window = .upstream m) :
    ∃ b, (getLink slot (upstreamPhaseEnd slot s)).window = .feedPhase m b := by
  unfold upstreamPhaseEnd
  rw [h]
  exact window_beginSlotEvaluation ..

theorem isUpstream_upstreamPhaseEnd (slot : Slot) (s : State) :
    (getLink slot (upstreamPhaseEnd slot s)).window.isUpstream = false := by
  rcases hw : (getLink slot s).window with m | ⟨m, b⟩ | _
  · obtain ⟨b, hb⟩ := window_upstreamPhaseEnd hw
    rw [hb]
    rfl
  · rw [upstreamPhaseEnd, hw]
    dsimp only
    rw [hw]
    rfl
  · rw [upstreamPhaseEnd, hw]
    dsimp only
    rw [hw]
    rfl

/-- The evaluation that a window begins is one it can wait for. -/
theorem windowEvaluations_beginSlotEvaluation (slot : Slot) (m : Option Answer)
    (hs : WindowEvaluations s) : WindowEvaluations (beginSlotEvaluation slot m s) := by
  intro x hx
  unfold beginSlotEvaluation at hx ⊢
  split at hx
  · show (findEvaluation (slotTarget x) (beginEvaluation (slotTarget slot) _ s)).any _ = true
    rw [find_beginEvaluation]
    split
    · exact newEvaluation_awaited slot _ s
    · next hne =>
      have hxs : x ≠ slot := fun e => hne (by rw [e])
      rw [setFeedPhase, getLink_modLink, if_neg hxs] at hx
      exact hs x hx
  · by_cases hxs : x = slot
    · rw [hxs, getLink_setFeedPhase_self] at hx
      cases hx
    · rw [setFeedPhase, getLink_modLink, if_neg hxs] at hx
      exact hs x hx

theorem upstreamPhaseEnd_keeps_windowLaw {slot : Slot} (hs : WindowLaw s)
    (hbelow : OverBelow (position slot) s) (hcome : PlaceReached .phaseEnd (position slot) s) :
    WindowLaw (upstreamPhaseEnd slot s) := by
  rcases hw : (getLink slot s).window with m | _ | _
  · have hplain : Plain s (changePresence slot
        (LinkSlot.countWindow s.settings.global (windowGood m)) s) :=
      changePresence_plain slot (countWindow_window _ _) s
    have heval := windowEvaluations_beginSlotEvaluation slot m
      (windowLaw_iff.mp (plain_keeps_windowLaw hplain hs)).2.2
    refine windowLaw_move hs hbelow
      (fun x hx => by rw [getLink_upstreamPhaseEnd_of_ne hx])
      ((upstreamPhaseEnd_moves slot s).clockPart (by simp [linkKinds]))
      (fun h => by rw [hw] at h; cases h) (fun p hp => ?_) ?_
    · obtain ⟨b, hb⟩ := window_upstreamPhaseEnd hw
      rw [hb] at hp
      obtain rfl := Option.some.inj hp
      exact hcome
    · unfold upstreamPhaseEnd
      rw [hw]
      exact heval
  · rwa [upstreamPhaseEnd, hw]
  · rwa [upstreamPhaseEnd, hw]

/-! ### A window in progress -/

/-- Among the events of window w: the law holds, the windows below are over, the place has come, and
since s0 only the links of window w have changed, with no clock. -/
structure InWindow (w : Nat) (p : Place) (s0 s : State) : Prop where
  law : WindowLaw s
  below : OverBelow w s
  reached : PlaceReached p w s
  clock : clockPart s = clockPart s0
  others : ∀ x : Slot, position x ≠ w → getLink x s = getLink x s0

theorem InWindow.start {w : Nat} {p : Place} (hs : WindowLaw s) (hbelow : OverBelow w s)
    (hcome : PlaceReached p w s) : InWindow w p s s :=
  ⟨hs, hbelow, hcome, rfl, fun _ _ => rfl⟩

/-- What an event of window w keeps. -/
theorem InWindow.next {w : Nat} {p : Place} {s0 : State} (h : InWindow w p s0 s)
    (hlaw : WindowLaw t) (hclock : clockPart t = clockPart s)
    (hothers : ∀ x : Slot, position x ≠ w → getLink x t = getLink x s) : InWindow w p s0 t where
  law := hlaw
  below x hx := by rw [hothers x (Nat.ne_of_lt hx)]; exact h.below x hx
  reached := placeReached_of_clockPart hclock h.reached
  clock := hclock.trans h.clock
  others x hx := (hothers x hx).trans (h.others x hx)

/-- The FEED phase comes after the end of the upstream phase (R152). -/
theorem InWindow.phaseEnd_of_feed {w : Nat} {s0 : State} (h : InWindow w .feed s0 s) :
    PlaceReached .phaseEnd w s := fun hc hb => by
  have := h.reached hc hb
  simp only [Place.bit] at this ⊢
  omega

/-- A fold over the slots of a window: what each step keeps, and what it brings for its own slot and
no later step undoes. -/
theorem foldl_slotsAt {I : State → Prop} {Q : Slot → State → Prop} {f : State → Slot → State}
    {w : Nat} (hI : ∀ s x, position x = w → I s → I (f s x))
    (hQ : ∀ s x, position x = w → I s → Q x (f s x))
    (hkeep : ∀ s x y, position x = w → I s → Q y s → Q y (f s x)) (s : State) (hs : I s) :
    I ((slotsAt w).foldl f s) ∧ ∀ x, position x = w → Q x ((slotsAt w).foldl f s) := by
  suffices ∀ (l : List Slot) (s : State), (∀ x ∈ l, position x = w) → I s →
      I (l.foldl f s) ∧ (∀ x ∈ l, Q x (l.foldl f s)) ∧ ∀ y, Q y s → Q y (l.foldl f s) by
    obtain ⟨hi, hq, -⟩ := this (slotsAt w) s (fun x hx => (mem_slotsAt w x).mp hx) hs
    exact ⟨hi, fun x hx => hq x ((mem_slotsAt w x).mpr hx)⟩
  intro l
  induction l with
  | nil => exact fun s _ hs => ⟨hs, fun x hx => absurd hx List.not_mem_nil, fun _ h => h⟩
  | cons x l ih =>
    intro s hl hs
    have hx := hl x List.mem_cons_self
    obtain ⟨hi, hq, hk⟩ := ih (f s x) (fun y hy => hl y (List.mem_cons_of_mem _ hy)) (hI s x hx hs)
    refine ⟨hi, fun y hy => ?_, fun y hy => hk y (hkeep s x y hx hs hy)⟩
    rcases List.mem_cons.mp hy with rfl | hy
    · exact hk y (hQ s y hx hs)
    · exact hq y hy

theorem getLink_endPhase_of_ne {slot x : Slot} (h : x ≠ slot) (s : State) :
    getLink x (endPhase slot s) = getLink x s := by
  unfold endPhase
  split
  · rw [getLink_fetchStart, getLink_upstreamPhaseEnd_of_ne h, getLink_fetchStart]
  · rfl

theorem isUpstream_endPhase (slot : Slot) (s : State) :
    (getLink slot (endPhase slot s)).window.isUpstream = false := by
  unfold endPhase
  split
  · rw [getLink_fetchStart]
    exact isUpstream_upstreamPhaseEnd ..
  · next h => exact Bool.not_eq_true _ ▸ h

theorem ne_of_position_ne {x y : Slot} (h : position x ≠ position y) : x ≠ y :=
  fun e => h (by rw [e])

theorem endPhase_inWindow {w : Nat} {p : Place} {s0 : State} {slot : Slot} (hw : position slot = w)
    (hcome : PlaceReached .phaseEnd w s) (h : InWindow w p s0 s) :
    InWindow w p s0 (endPhase slot s) := by
  refine h.next ?_ ((endPhase_moves slot s).clockPart (by simp [linkKinds])) fun x hx =>
    getLink_endPhase_of_ne (ne_of_position_ne (by rwa [hw])) s
  unfold endPhase
  split
  · have h1 := plain_keeps_windowLaw (fetchStart_plain s) h.law
    have hclock := (fetchStart_plain s).clockPart (by simp)
    refine plain_keeps_windowLaw (fetchStart_plain _) (upstreamPhaseEnd_keeps_windowLaw h1 ?_ ?_)
    · intro x hx
      rw [getLink_fetchStart]
      exact h.below x (hw ▸ hx)
    · rw [hw]
      exact placeReached_of_clockPart hclock hcome
  · exact h.law

/-- After the end of a window's upstream phases none of its windows is in one. -/
theorem endPhases_inWindow {w : Nat} {p : Place} {s0 : State}
    (hcome : PlaceReached .phaseEnd w s) (h : InWindow w p s0 s) :
    InWindow w p s0 (endPhases w s) ∧
      ∀ x, position x = w → (getLink x (endPhases w s)).window.isUpstream = false := by
  have hreach : ∀ {s'}, InWindow w p s0 s' → PlaceReached .phaseEnd w s' := fun h' =>
    placeReached_of_clockPart (h'.clock.trans h.clock.symm) hcome
  refine foldl_slotsAt (Q := fun x s => (getLink x s).window.isUpstream = false)
    (fun s x hx hs => endPhase_inWindow hx (hreach hs) hs)
    (fun s x _ _ => isUpstream_endPhase x s) (fun s x y _ _ hy => ?_) s h
  by_cases he : y = x
  · rw [he]
    exact isUpstream_endPhase x s
  · rw [getLink_endPhase_of_ne he]
    exact hy

/-! ### The end of evaluations -/

/-- An evaluation that can end, with its reads made. -/
theorem readAll_ends {e : Evaluation} (c : CouplingStore) (h : e.awaited = true) :
    (e.readAll c).waiting = [] ∧ (e.readAll c).bank = some (e.bankAt c) := by
  unfold Evaluation.readAll
  split
  · next hw =>
    obtain ⟨name, hb⟩ : ∃ name, e.bank = some name := by
      simp only [Evaluation.awaited, hw, Bool.and_eq_true, Bool.or_eq_true] at h
      exact Option.isSome_iff_exists.mp (h.2.resolve_left (by simp))
    exact ⟨hw, by simp [Evaluation.bankAt, hb]⟩
  · exact ⟨rfl, rfl⟩

theorem find_readThrough (u v : Target) (s : State) :
    findEvaluation v (readThrough u s) =
      (findEvaluation v s).map fun e => if e.target ≤ u then e.readAll s.store else e := by
  rw [findEvaluation, readThrough_evaluations]
  exact find_map_evaluations (fun e => by split; exacts [(readAll_spec _ e).1, rfl]) v _

/-- An evaluation in flight that can end is run to its end (R71, R72). -/
theorem finishEvaluation_eq {u : Target} {e : Evaluation} (hf : findEvaluation u s = some e)
    (he : e.awaited = true) :
    finishEvaluation u s =
      endInto (e.readAll s.store) (e.bankAt s.store) (readThrough u s) := by
  have hu : e.target = u := findEvaluation_target hf
  obtain ⟨hw, hb⟩ := readAll_ends s.store he
  unfold finishEvaluation evaluationEnd
  rw [if_pos (by rw [hf]; rfl), find_readThrough, hf]
  show endOf (if e.target ≤ u then e.readAll s.store else e) _ = _
  rw [if_pos (le_of_eq hu), endOf, hw, hb]

/-- Where a window waits for its evaluation, the evaluation's end leaves its block ready. -/
theorem isEvaluating_endSlotEvaluation (slot : Slot) (hs : WindowEvaluations s) :
    (getLink slot (endSlotEvaluation slot s)).window.isEvaluating = false := by
  unfold endSlotEvaluation
  split
  · next h =>
    have hany := hs slot h
    rcases hf : findEvaluation (slotTarget slot) s with _ | e
    · rw [hf] at hany
      cases hany
    · rw [hf] at hany
      replace hany : e.awaited = true := hany
      obtain ⟨htarget, hsnap, -⟩ := readAll_spec s.store e
      rw [finishEvaluation_eq hf hany, getLink_endInto, htarget,
        if_pos (findEvaluation_target hf).symm, hsnap]
      split
      · exact isEvaluating_ready _ _
      · next hnone => simp [Evaluation.awaited, hnone] at hany
  · next h => exact Bool.not_eq_true _ ▸ h

theorem getLink_endSlotEvaluation_of_ne {slot x : Slot} (h : x ≠ slot) (s : State) :
    getLink x (endSlotEvaluation slot s) = getLink x s := by
  unfold endSlotEvaluation
  split
  · exact getLink_finishEvaluation_of_ne (slotTarget_ne h) s
  · rfl

/-- After the end of a window's evaluations none of its windows waits for one, and each is in its
upstream phase exactly if it was. -/
theorem endEvaluations_inWindow {w : Nat} {p : Place} {s0 : State} (h : InWindow w p s0 s) :
    InWindow w p s0 (endEvaluations w s) ∧
      ∀ x, position x = w → (getLink x (endEvaluations w s)).window.isEvaluating = false := by
  refine foldl_slotsAt (Q := fun x s => (getLink x s).window.isEvaluating = false)
    (fun s x hx hs => ?_) (fun s x _ hs => ?_) (fun s x y _ hs hy => ?_) s h
  · have hplain := endSlotEvaluation_plain x s
    exact hs.next (plain_keeps_windowLaw hplain hs.law) (hplain.clockPart (by simp)) fun y hy =>
      getLink_endSlotEvaluation_of_ne (ne_of_position_ne (by rwa [hx])) s
  · exact isEvaluating_endSlotEvaluation x (windowLaw_iff.mp hs.law).2.2
  · by_cases he : y = x
    · rw [he]
      exact isEvaluating_endSlotEvaluation x (windowLaw_iff.mp hs.law).2.2
    · rw [getLink_endSlotEvaluation_of_ne he]
      exact hy

/-- Once a window's FEED phase has begun, none of its windows is in its upstream phase or waits for
an evaluation. -/
theorem openFeedPhases_inWindow {w : Nat} {s0 : State} (h : InWindow w .feed s0 s) :
    InWindow w .feed s0 (openFeedPhases w s) ∧ ∀ x, position x = w →
      (getLink x (openFeedPhases w s)).window.isUpstream = false ∧
        (getLink x (openFeedPhases w s)).window.isEvaluating = false := by
  obtain ⟨h1, hup⟩ := endPhases_inWindow h.phaseEnd_of_feed h
  obtain ⟨h2, heval⟩ := endEvaluations_inWindow h1
  refine ⟨h2, fun x hx => ⟨?_, heval x hx⟩⟩
  rw [openFeedPhases, (plain_window (endEvaluations_plain w _) x).isUpstream]
  exact hup x hx

/-! ### The FEEDs -/

/-- A window that is neither in its upstream phase nor waits for an evaluation has its block ready or
is over. -/
theorem window_ready_or_over {w : Window} (hu : w.isUpstream = false) (he : w.isEvaluating = false) :
    (∃ m b, w = .feedPhase m (.ready b)) ∨ w = .over := by
  cases w with
  | upstream m => cases hu
  | feedPhase m b =>
    cases b with
    | evaluating => cases he
    | ready b => exact .inl ⟨m, b, rfl⟩
  | _ => exact .inr rfl

theorem getLink_sendFeed (slot : Slot) (m : Option Answer) (b : Block) (x : Slot) (s : State) :
    getLink x (sendFeed slot m b s) =
      if x = slot then { getLink x s with window := .over, sent := some (feedOf m b s) }
      else getLink x s := by
  have h := getLink_modLink slot x (fun l => { l with window := .over, sent := some (feedOf m b s) }) s
  unfold sendFeed latchClipped
  split <;> exact h

theorem getLink_sendReady_of_ne {slot x : Slot} (h : x ≠ slot) (s : State) :
    getLink x (sendReady slot s) = getLink x s := by
  unfold sendReady
  split
  · rw [getLink_sendFeed, if_neg h]
  · rfl

/-- A FEED whose block is ready leaves its window over. -/
theorem sendReady_over {slot : Slot} (hu : (getLink slot s).window.isUpstream = false)
    (he : (getLink slot s).window.isEvaluating = false) :
    (getLink slot (sendReady slot s)).window = .over := by
  unfold sendReady
  rcases window_ready_or_over hu he with ⟨m, b, h⟩ | h <;> rw [h]
  · show (getLink slot (sendFeed slot m b s)).window = _
    rw [getLink_sendFeed, if_pos rfl]
  · exact h

theorem evaluations_sendFeed (slot : Slot) (m : Option Answer) (b : Block) (s : State) :
    (sendFeed slot m b s).prediction = s.prediction := by
  unfold sendFeed latchClipped
  split <;> rfl

theorem sendReady_keeps_windowLaw {slot : Slot} (hs : WindowLaw s)
    (hbelow : OverBelow (position slot) s) (hcome : PlaceReached .feed (position slot) s) :
    WindowLaw (sendReady slot s) := by
  have hclock := (sendReady_moves slot s).clockPart (by simp [linkKinds])
  unfold sendReady at hclock ⊢
  split
  · next m b hw =>
    rw [hw] at hclock
    have hslot : (getLink slot (sendFeed slot m b s)).window = .over := by
      rw [getLink_sendFeed, if_pos rfl]
    have hrest : ∀ x, x ≠ slot →
        (getLink x (sendFeed slot m b s)).window = (getLink x s).window := fun x hx => by
      rw [getLink_sendFeed, if_neg hx]
    refine windowLaw_move hs hbelow hrest hclock (fun _ => hslot) (fun p hp => ?_) fun x hx => ?_
    · rw [hslot] at hp
      obtain rfl := Option.some.inj hp
      exact hcome
    · rw [findEvaluation, evaluations_sendFeed]
      by_cases he : x = slot
      · rw [he, hslot] at hx
        cases hx
      · exact (windowLaw_iff.mp hs).2.2 x (hrest x he ▸ hx)
  · exact hs

/-- Every row's window `w` is past its upstream phase and its evaluation. -/
def PastTurnaround (w : Nat) (s : State) : Prop :=
  ∀ x, position x = w →
    (getLink x s).window.isUpstream = false ∧ (getLink x s).window.isEvaluating = false

/-- The FEEDs of a window whose FEED phase has begun leave it over on every row. -/
theorem sendFeeds_inWindow {w : Nat} {s0 : State} (h : InWindow w .feed s0 s)
    (hw : PastTurnaround w s) :
    InWindow w .feed s0 (sendFeeds w s) ∧
      ∀ x, position x = w → (getLink x (sendFeeds w s)).window = .over := by
  have hopen : ∀ s x, position x = w → InWindow w .feed s0 s ∧ PastTurnaround w s →
      (getLink x (sendReady x s)).window = .over := fun s x hx hs =>
    sendReady_over (hs.2 x hx).1 (hs.2 x hx).2
  have hI : ∀ s x, position x = w → InWindow w .feed s0 s ∧ PastTurnaround w s →
      InWindow w .feed s0 (sendReady x s) ∧ PastTurnaround w (sendReady x s) := fun s x hx hs => by
    refine ⟨hs.1.next (sendReady_keeps_windowLaw hs.1.law (fun y hy => hs.1.below y (hx ▸ hy))
      (hx ▸ hs.1.reached)) ((sendReady_moves x s).clockPart (by simp [linkKinds])) fun y hy =>
      getLink_sendReady_of_ne (ne_of_position_ne (by rwa [hx])) s, fun y hy => ?_⟩
    by_cases he : y = x
    · rw [he, hopen s x hx hs]
      exact ⟨rfl, rfl⟩
    · rw [getLink_sendReady_of_ne he]
      exact hs.2 y hy
  have hkeep : ∀ s x y, position x = w → InWindow w .feed s0 s ∧ PastTurnaround w s →
      (getLink y s).window = .over → (getLink y (sendReady x s)).window = .over :=
    fun s x y hx hs hy => by
      by_cases he : y = x
      · rw [he]
        exact hopen s x hx hs
      · rw [getLink_sendReady_of_ne he]
        exact hy
  obtain ⟨⟨h1, -⟩, hover⟩ := foldl_slotsAt (Q := fun x s => (getLink x s).window = .over)
    hI hopen hkeep s ⟨h, hw⟩
  exact ⟨h1, hover⟩

theorem runWindow_inWindow {w : Nat} {s0 : State} (h : InWindow w .feed s0 s) :
    InWindow w .feed s0 (runWindow w s) ∧
      ∀ x, position x = w → (getLink x (runWindow w s)).window = .over := by
  obtain ⟨h1, hopen⟩ := openFeedPhases_inWindow h
  exact sendFeeds_inWindow h1 hopen

/-- Windows that have come to their FEED phase run to their end, in order, and the windows after
them stand (R152). -/
theorem runWindows_spec {w : Nat} (hs : WindowLaw s) (hcome : ∀ v < w, PlaceReached .feed v s) :
    WindowLaw (runWindows w s) ∧ OverBelow w (runWindows w s) ∧
      clockPart (runWindows w s) = clockPart s ∧
      ∀ x : Slot, w ≤ position x → getLink x (runWindows w s) = getLink x s := by
  induction w with
  | zero => exact ⟨hs, fun x hx => absurd hx (Nat.not_lt_zero _), rfl, fun _ _ => rfl⟩
  | succ w ih =>
    obtain ⟨hlaw, hbelow, hclock, hrest⟩ := ih fun v hv => hcome v (Nat.lt_succ_of_lt hv)
    have hstart := InWindow.start hlaw hbelow
      (placeReached_of_clockPart hclock (hcome w (Nat.lt_succ_self w)))
    obtain ⟨h, hover⟩ := runWindow_inWindow hstart
    refine ⟨h.law, fun x hx => ?_, h.clock.trans hclock, fun x hx => ?_⟩
    · rcases Nat.lt_succ_iff_lt_or_eq.mp hx with hx | hx
      · exact h.below x hx
      · exact hover x hx
    · exact (h.others x (Nat.ne_of_gt hx)).trans (hrest x (Nat.le_of_succ_le hx))

/-! ### Events of a window in their place -/

/-- The FEED phases of the windows before a window have come where any place of its own has. -/
theorem feed_before {p : Place} {w v : Nat} (h : PlaceReached p w s) (hv : v < w) :
    PlaceReached .feed v s := fun hc hb => by
  have := h hc hb
  cases p <;> simp only [Place.bit] at this ⊢ <;> omega

/-- What an event of a window does in its place: the windows before it are over by then. -/
theorem inPlace_spec {p : Place} {slot : Slot} (f : State → State) (hs : WindowLaw s)
    (hcome : placeCome p slot s = true) :
    ∃ s', inPlace p slot f s = f s' ∧ WindowLaw s' ∧ OverBelow (position slot) s' ∧
      PlaceReached p (position slot) s' ∧ clockPart s' = clockPart s ∧
      ∀ x : Slot, position slot ≤ position x → getLink x s' = getLink x s := by
  have hreach : PlaceReached p (position slot) s := fun _ _ => of_decide_eq_true hcome
  obtain ⟨hlaw, hbelow, hclock, hrest⟩ := runWindows_spec hs fun v hv => feed_before hreach hv
  exact ⟨_, if_pos hcome, hlaw, hbelow, placeReached_of_clockPart hclock hreach, hclock, hrest⟩

/-- An event of a window in its place keeps the law where the event itself does. -/
theorem inPlace_keeps_windowLaw {p : Place} {slot : Slot} {f : State → State}
    (hf : ∀ s, WindowLaw s → OverBelow (position slot) s → PlaceReached p (position slot) s →
      WindowLaw (f s)) (hs : WindowLaw s) : WindowLaw (inPlace p slot f s) := by
  by_cases hcome : placeCome p slot s = true
  · obtain ⟨s', he, hlaw, hbelow, hreach, -, -⟩ := inPlace_spec f hs hcome
    rw [he]
    exact hf s' hlaw hbelow hreach
  · rw [inPlace, if_neg hcome]
    exact hs

/-- A message's answer is set in a window that has taken none. -/
theorem setAnswer_keeps_windowLaw {slot : Slot} {a : Answer} (hs : WindowLaw s)
    (hbelow : OverBelow (position slot) s) (hcome : PlaceReached .message (position slot) s)
    (hw : (getLink slot s).window = .upstream none) : WindowLaw (setAnswer slot a s) := by
  have hslot : (getLink slot (setAnswer slot a s)).window = .upstream (some a) := by
    rw [setAnswer, getLink_modLink, if_pos rfl]
  have hrest : ∀ x, x ≠ slot → (getLink x (setAnswer slot a s)).window = (getLink x s).window :=
    fun x hx => by rw [setAnswer, getLink_modLink, if_neg hx]
  refine windowLaw_move hs hbelow hrest rfl (fun h => by rw [hw] at h; cases h) (fun p hp => ?_)
    fun x hx => ?_
  · rw [hslot] at hp
    obtain rfl := Option.some.inj hp
    exact hcome
  · by_cases he : x = slot
    · rw [he, hslot] at hx
      cases hx
    · exact (windowLaw_iff.mp hs).2.2 x (hrest x he ▸ hx)

/-- A message that makes plain changes and then sets its answer. -/
def Answers (slot : Slot) (f : State → State) : Prop :=
  ∀ s, ∃ s' a, Plain s s' ∧ f s = setAnswer slot a s'

theorem inWindow_keeps_windowLaw {slot : Slot} {f : State → State} (hf : Answers slot f)
    (hs : WindowLaw s) (hbelow : OverBelow (position slot) s)
    (hcome : PlaceReached .message (position slot) s) : WindowLaw (inWindow slot f s) := by
  unfold inWindow
  split
  · next h =>
    obtain ⟨s', a, hplain, he⟩ := hf s
    rw [he]
    have hw := plain_window hplain
    refine setAnswer_keeps_windowLaw (plain_keeps_windowLaw hplain hs)
      (fun x hx => (hw x).over_iff.mpr (hbelow x hx))
      (placeReached_of_clockPart (hplain.clockPart (by simp)) hcome)
      (((hw slot).upstream_iff none).mpr h.2)
  · exact hs

theorem answers_handToTable (slot : Slot) (tag : Tag) {f : State → Reply × State}
    (hf : ∀ s, (getLink slot s).effective = .present → Plain s (f s).2) :
    Answers slot (handToTable slot tag f) := fun s =>
  ⟨_, _, answerIfPresent_plain slot (hf s), rfl⟩

theorem answers_discardMessage (slot : Slot) : Answers slot (discardMessage slot) := fun s =>
  ⟨s, _, .refl s, rfl⟩

theorem answers_ite {slot : Slot} {c : State → Prop} [∀ s, Decidable (c s)] {f g : State → State}
    (hf : Answers slot f) (hg : Answers slot g) :
    Answers slot fun s => if c s then f s else g s := fun s => by
  by_cases h : c s
  · simpa only [if_pos h] using hf s
  · simpa only [if_neg h] using hg s

theorem answers_takeStatus (slot : Slot) (m : StatusFields) : Answers slot (takeStatus slot m) :=
  fun s => by
  have hdrive : Plain s (setDrive slot m.drive s) := Plain.of (.link (.mod slot _ rfl (.inl rfl)))
  have hshock : ∀ s, Plain s (statusShock slot m.shock s) := fun s => by
    unfold statusShock
    split
    · exact trigger_plain slot s
    · exact .refl s
  have hhand : ∀ s, Plain s (statusHandResidual slot m s) := fun s => by
    unfold statusHandResidual
    split
    · exact statusResidual_plain _ _ _ _ s
    · exact .refl s
  exact ⟨_, _, (hdrive.trans (hshock _)).trans (hhand _), rfl⟩

/-! ### Turnaround and sample period -/

/-- A window that waits for an evaluation finds the windows before it over and its upstream phases'
end come. -/
theorem inWindow_of_isEvaluating {slot : Slot} (hs : WindowLaw s)
    (he : (getLink slot s).window.isEvaluating = true) :
    InWindow (position slot) .phaseEnd s s := by
  obtain ⟨horder, hplace, -⟩ := windowLaw_iff.mp hs
  rcases hw : (getLink slot s).window with m | ⟨m, b⟩ | _ <;> rw [hw] at he
  · cases he
  · refine InWindow.start hs (horder slot (by rw [hw]; exact nofun)) (hplace slot .phaseEnd ?_)
    rw [hw]
    rfl
  · cases he

theorem beginTurnaround_keeps_windowLaw (u : Target) (hs : WindowLaw s) :
    WindowLaw (beginTurnaround u s) := by
  unfold beginTurnaround
  split
  · split
    · next slot _ he =>
      have h := inWindow_of_isEvaluating hs he
      exact (endPhases_inWindow h.reached h).1.law
    · exact hs
  · exact hs

theorem readInTurnaround_keeps_windowLaw (hs : WindowLaw s) : WindowLaw (readInTurnaround s) := by
  unfold readInTurnaround
  split
  · exact plain_keeps_windowLaw (predictionRead_plain _) (beginTurnaround_keeps_windowLaw _ hs)
  · exact hs

theorem endInTurnaround_keeps_windowLaw (u : Target) (hs : WindowLaw s) :
    WindowLaw (endInTurnaround u s) := by
  unfold endInTurnaround
  split
  · exact plain_keeps_windowLaw (evaluationEnd_plain _ _) (beginTurnaround_keeps_windowLaw _ hs)
  · exact hs

/-- The windows counted as over when a sample period ends have ended within it (R152). -/
theorem windowEnd_of_lt_windowsEnded {i v : Nat} (hv : v < windowsEnded i) :
    600 + 400 * v ≤ periodEnd i := by
  simp only [windowsEnded, periodEnd, Place.bit] at hv ⊢
  omega

/-- What the end of a sample period leaves of the windows: those that end within it are over, and of
the next one the phases and evaluations that end within it have ended (R152). -/
theorem periodWindows_spec (hs : WindowLaw s) :
    let i := (periodOf s.now).val
    WindowLaw (periodWindows i s) ∧ clockPart (periodWindows i s) = clockPart s ∧
      OverBelow (windowsEnded i) (periodWindows i s) ∧
      (440 + 400 * windowsEnded i < periodEnd i → ∀ x, position x = windowsEnded i →
        (getLink x (periodWindows i s)).window.isEvaluating = false ∧
          (getLink x (periodWindows i s)).window.isUpstream = false) ∧
      (360 + 400 * windowsEnded i < periodEnd i → ∀ x, position x = windowsEnded i →
        (getLink x (periodWindows i s)).window.isUpstream = false) := by
  intro i
  obtain ⟨hlaw, hbelow, hclock, -⟩ := runWindows_spec (w := windowsEnded i) hs fun v hv _ _ => by
    have := windowEnd_of_lt_windowsEnded hv
    show 440 + 400 * v < periodEnd i
    omega
  have hreach : ∀ p : Place, p.bit (windowsEnded i) < periodEnd i →
      PlaceReached p (windowsEnded i) (runWindows (windowsEnded i) s) := fun p hp =>
    placeReached_of_clockPart hclock fun _ _ => hp
  unfold periodWindows periodPhases
  split
  · next hfeed =>
    obtain ⟨h, hopen⟩ := openFeedPhases_inWindow (InWindow.start hlaw hbelow (hreach _ hfeed))
    exact ⟨h.law, h.clock.trans hclock, h.below,
      fun _ x hx => ⟨(hopen x hx).2, (hopen x hx).1⟩, fun _ x hx => (hopen x hx).1⟩
  · next hfeed =>
    split
    · next hend =>
      have hstart := InWindow.start hlaw hbelow (hreach _ hend)
      obtain ⟨h, hup⟩ := endPhases_inWindow hstart.reached hstart
      exact ⟨h.law, h.clock.trans hclock, h.below, fun hf => absurd hf hfeed, fun _ x hx => hup x hx⟩
    · next hend =>
      exact ⟨hlaw, hclock, hbelow, fun hf => absurd hf hfeed, fun he => absurd he hend⟩

theorem takeDue_keeps_windowLaw (hs : WindowLaw s) : WindowLaw (takeDue s) :=
  moves_keep_windowLaw (by simp [dueKinds]) (takeDue_moves s) hs

theorem takeDueFor_keeps_windowLaw (id : ProfileId) (hs : WindowLaw s) : WindowLaw (takeDueFor id s) :=
  moves_keep_windowLaw (by simp [dueKinds]) (takeDueFor_moves id s) hs

/-! ### Every command -/

/-- What the events of windows keep, with what is due before them and the reset that may end. -/
theorem running_keeps {P : State → Prop} {f : State → State} (hopened : ∀ s, P s → P (endColdReset s))
    (hf : ∀ s, P s → P (f s)) (h : running f s = .next t) (hs : P s) : P t := by
  rcases onPart_cases id f s with ⟨-, e⟩ | ⟨-, e⟩ | ⟨-, -, -, e⟩ <;>
    obtain rfl := Host.Outcome.next.inj (e.symm.trans h)
  · exact hf s hs
  · exact hf _ (hopened s hs)
  · exact hs

theorem endColdReset_windowLaw (s : State) (hs : WindowLaw s) : WindowLaw (endColdReset s) :=
  change_keeps_windowLaw (by decide) (by decide) (by decide) (.opened s) hs

theorem inTurn_keeps_windowLaw {p : Place} {slot : Slot} {f : State → State}
    (hf : ∀ s, WindowLaw s → OverBelow (position slot) s → PlaceReached p (position slot) s →
      WindowLaw (f s)) (h : inTurn p slot f s = .next t) (hs : WindowLaw s) : WindowLaw t :=
  running_keeps endColdReset_windowLaw
    (fun _ hs => inPlace_keeps_windowLaw hf (takeDue_keeps_windowLaw hs)) h hs

theorem message_keeps_windowLaw {slot : Slot} {f : State → State} (hf : Answers slot f)
    (h : message slot f s = .next t) (hs : WindowLaw s) : WindowLaw t :=
  inTurn_keeps_windowLaw (fun _ hs hbelow hcome => inWindow_keeps_windowLaw hf hs hbelow hcome) h hs

theorem afterEvents_keeps_windowLaw {f : State → State} (hf : ∀ s, WindowLaw s → WindowLaw (f s))
    (h : afterEvents f s = .next t) (hs : WindowLaw s) : WindowLaw t :=
  running_keeps endColdReset_windowLaw
    (fun s hs => hf _ (plain_keeps_windowLaw (takeMoment_plain s) hs)) h hs

theorem chassisTimeAdvance_keeps_windowLaw (hs : WindowLaw s) : WindowLaw (chassisTimeAdvance s) := by
  have hdue := takeDue_keeps_windowLaw hs
  have hwindows : WindowLaw (periodWindows (periodOf s.now).val (takeDue s)) := by
    have h := (periodWindows_spec hdue).1
    rwa [takeDue_now] at h
  have hstations := plain_keeps_windowLaw (finishStationEvaluations_plain _) hwindows
  exact moves_keep_windowLaw (by simp)
    (advance_moves (clockPart_boundary (clockPart_periodEnded s))) hstations

/-- Only the events of windows, the grants and ends of evaluations, and the end of a sample period
bring a change of a window. -/
theorem window_mem_kindsOf {c : Instr} (h : Kind.window ∈ kindsOf c) :
    c.windowOf.isSome = true ∨ c = .predictionListRead ∨ (∃ u, c = .evaluationEnd u) ∨
      c = .chassisTimeAdvance := by
  cases c with
  | predictionListRead => exact .inr (.inl rfl)
  | evaluationEnd u => exact .inr (.inr (.inl ⟨u, rfl⟩))
  | chassisTimeAdvance => exact .inr (.inr (.inr rfl))
  | notice | amend | withdraw | close | status | malformedMessage | upstreamPhaseEnd | feed =>
    exact .inl rfl
  | _ => exact absurd (List.elem_eq_true_of_mem h) Bool.false_ne_true

/-- An event of a window keeps the law of the windows. -/
theorem exec_window_keeps_windowLaw {c : Instr} (hc : c.windowOf.isSome = true)
    (h : exec c s = .next t) (hs : WindowLaw s) : WindowLaw t := by
  cases c with
  | notice slot m =>
    have hf : Answers slot (takeNotice slot m) :=
      answers_ite (answers_handToTable slot _ fun _ h => noticePresent_plain slot m h)
        (answers_discardMessage slot)
    exact running_keeps endColdReset_windowLaw (fun _ hs => inPlace_keeps_windowLaw
      (fun _ hs hbelow hcome => inWindow_keeps_windowLaw hf hs hbelow hcome)
      (takeDueFor_keeps_windowLaw _ hs)) h hs
  | amend slot m =>
    exact message_keeps_windowLaw (answers_ite
      (answers_handToTable slot _ fun s _ => amendPresent_plain slot m s)
      (answers_discardMessage slot)) h hs
  | withdraw slot tag =>
    exact message_keeps_windowLaw
      (answers_handToTable slot _ fun s _ => withdrawPresent_plain slot tag s) h hs
  | close slot tag stamp =>
    exact message_keeps_windowLaw
      (answers_handToTable slot _ fun s _ => closePresent_plain slot tag stamp s) h hs
  | status slot m => exact message_keeps_windowLaw (answers_takeStatus slot m) h hs
  | malformedMessage slot => exact message_keeps_windowLaw (answers_discardMessage slot) h hs
  | upstreamPhaseEnd slot =>
    exact inTurn_keeps_windowLaw
      (fun _ hs hbelow hcome => upstreamPhaseEnd_keeps_windowLaw hs hbelow hcome) h hs
  | feed slot =>
    refine inTurn_keeps_windowLaw (fun _ hs hbelow hcome => ?_) h hs
    obtain ⟨hw, -⟩ := openFeedPhases_inWindow (InWindow.start hs hbelow hcome)
    exact sendReady_keeps_windowLaw hw.law hw.below hw.reached
  | _ => cases hc

/-- Every command keeps the law of the windows (R71, R152). -/
theorem exec_keeps_windowLaw {c : Instr} (h : exec c s = .next t) (hs : WindowLaw s) :
    WindowLaw t := by
  by_cases hwindow : Kind.window ∈ kindsOf c
  · rcases window_mem_kindsOf hwindow with hc | rfl | ⟨u, rfl⟩ | rfl
    · exact exec_window_keeps_windowLaw hc h hs
    · exact afterEvents_keeps_windowLaw (fun _ => readInTurnaround_keeps_windowLaw) h hs
    · exact afterEvents_keeps_windowLaw (fun _ => endInTurnaround_keeps_windowLaw u) h hs
    · exact running_keeps endColdReset_windowLaw (fun _ => chassisTimeAdvance_keeps_windowLaw) h hs
  · refine moves_keep_windowLaw (fun k hk => ⟨?_, ?_, ?_⟩) (exec_moves c h) hs
    · exact fun e => hwindow (e ▸ hk)
    · exact fun e => (not_mem_kindsOf c).1 (e ▸ hk)
    · exact fun e => (not_mem_kindsOf c).2 (e ▸ hk)

/-- Settles O5: a slot enters ABSENT after its purge, and a window moves on only in its place, with
the windows before it over and its evaluation in flight. -/
theorem stepsKeepPresenceAndWindowLaws : Obligations.StepsKeepPresenceAndWindowLaws := by
  unfold Obligations.StepsKeepPresenceAndWindowLaws
  exact ⟨fun s t hs h => step_keeps (P := PresenceLaw) (fun _ _ h => h)
      (fun c s t h => exec_keeps (fun k s t => change_keeps_presenceLaw) h) h hs,
    fun s t hs h => step_keeps (P := WindowLaw) (fun _ _ h => h)
      (fun c s t h => exec_keeps_windowLaw h) h hs⟩

end Sys2Proof.Machine
end

section
/-! PROOF. The queue, and the state after power-up. -/

namespace Sys2Proof.Machine

open Sys2Proof

/-- Settles O1: `step` is a match on the queue. -/
theorem stepRunsTheFrontCommand : Obligations.StepRunsTheFrontCommand := by
  unfold Obligations.StepRunsTheFrontCommand
  refine ⟨fun c q s h => ?_, fun s h => ?_⟩
  · rw [step, h]
  · rw [step, h]

/-! ### The state after power-up, part by part -/

@[simp] theorem getRecord_reset (r : RecordNo) : getRecord r State.reset = freeRecord :=
  tget_replicate ..

@[simp] theorem getLive_reset (slot : Slot) : getLive slot State.reset = 0 := tget_replicate ..

@[simp] theorem cacheSlot_reset (c : CacheNo) : tget State.reset.cache.slots c = .empty :=
  tget_replicate ..

@[simp] theorem getRing_reset (u : Target) : getRing u State.reset = [] := tget_replicate ..

@[simp] theorem getAdapt_reset (u : Target) : getAdapt u State.reset = coldAdapt :=
  tget_replicate ..

@[simp] theorem getStation_reset (k : Station) : getStation k State.reset = coldStation :=
  tget_replicate ..

@[simp] theorem getSuppression_reset (slot : Slot) :
    getSuppression slot State.reset = clearSuppression := tget_replicate ..

@[simp] theorem getLink_reset (slot : Slot) :
    getLink slot State.reset = openWindow coldLinkSlot :=
  (tget_map ..).trans (congrArg openWindow (tget_replicate ..))

@[simp] theorem targetSettings_reset (u : Target) :
    targetSettings u State.reset = defaultTarget := tget_replicate ..

@[simp] theorem slotSettings_reset (slot : Slot) :
    tget State.reset.settings.slots slot = defaultSlot := tget_replicate ..

@[simp] theorem stationSettings_reset (k : Station) :
    stationSettings k State.reset = defaultStation := tget_replicate ..

/-- No record of the reset table is live. -/
theorem not_isLive_reset (r : RecordNo) : isLive (getRecord r State.reset) = false := by
  rw [getRecord_reset]
  rfl

theorem not_unusable_reset (id : ProfileId) : unusable id State.reset = false :=
  tget_replicate ..

/-- An empty bank obeys its law. -/
theorem bankLaw_emptyBank : BankLaw emptyBank := by
  have hlists : ∀ source : Slot, tget emptyBank.lists source = [] := fun _ => tget_replicate ..
  refine ⟨fun source => ?_, ?_, Nat.zero_le _⟩
  · rw [hlists]
    exact ⟨Nat.zero_le _, .nil, fun e he => absurd he List.not_mem_nil⟩
  · simp [Bank.total, emptyBank]

theorem profileCacheLaw_reset : ProfileCacheLaw State.reset := by
  refine ⟨⟨Nat.zero_le _, .nil⟩, ⟨.nil, fun c => ?_⟩, fun c => ?_, fun c d h => ?_, fun c => ?_,
    fun c id h => ?_, fun id h => ?_, fun h => ?_⟩
  · rw [cacheSlot_reset]
    exact ⟨fun h => absurd h List.not_mem_nil, fun h => absurd h Bool.false_ne_true⟩
  · rw [cacheSlot_reset]
    rfl
  · rw [cacheSlot_reset] at h
    exact absurd rfl h
  · rw [cacheSlot_reset]
    rfl
  · exact absurd h List.not_mem_nil
  · rw [not_unusable_reset] at h
    exact absurd h Bool.false_ne_true
  · exact absurd h Bool.false_ne_true

theorem settingsLaw_reset : SettingsLaw State.reset := by
  refine ⟨by decide, fun u => ?_, fun slot => ?_, fun k => ?_⟩
  · rw [targetSettings_reset]
    decide
  · rw [slotSettings_reset]
    exact ⟨by decide, nofun, nofun⟩
  · rw [stationSettings_reset]
    decide

/-- Settles O3: after power-up every part holds its reset value, and each law reads as one of these
values. -/
theorem resetObeysEveryLaw : Obligations.ResetObeysEveryLaw := by
  unfold Obligations.ResetObeysEveryLaw
  refine ⟨⟨fun slot => ?_, fun r q h => ?_⟩, fun r h => ?_, profileCacheLaw_reset, fun c => ?_,
    ⟨bankLaw_emptyBank, bankLaw_emptyBank, trivial, fun h => ?_⟩, ⟨fun u => ?_, fun e h => ?_, .nil⟩,
    fun u => ?_, ⟨Nat.zero_le _, fun st h => ?_, fun m h => ?_⟩, fun k => ?_, fun k => ?_,
    ⟨fun slot => ?_, by decide⟩, ⟨fun y h => ?_, fun _ _ y p h => ?_, fun slot h => ?_⟩,
    settingsLaw_reset⟩
  · have hnone : liveOfSlot slot State.reset = [] := by
      refine List.eq_nil_iff_forall_not_mem.mpr fun r h => ?_
      have hlive := ((mem_liveOfSlot slot r _).mp h).1
      rw [not_isLive_reset] at hlive
      exact absurd hlive Bool.false_ne_true
    rw [hnone, getLive_reset]
    exact ⟨rfl, Nat.zero_le _⟩
  · rw [not_isLive_reset] at h
    exact absurd h Bool.false_ne_true
  · rw [not_isLive_reset] at h
    exact absurd h Bool.false_ne_true
  · rw [cacheSlot_reset]
    rfl
  · exact absurd h Bool.false_ne_true
  · rw [getRing_reset]
    exact ⟨Nat.zero_le _, fun r h => absurd h List.not_mem_nil⟩
  · exact absurd h List.not_mem_nil
  · rw [getAdapt_reset]
    decide
  · exact absurd h List.not_mem_nil
  · cases h
  · rw [getStation_reset, stationSettings_reset]
    decide
  · rw [getStation_reset]
    exact ⟨rfl, rfl, by decide, by decide⟩
  · rw [getSuppression_reset]
    decide
  · rw [getLink_reset] at h
    exact absurd rfl h
  · rw [getLink_reset] at h
    cases h
  · rw [getLink_reset] at h
    exact absurd h Bool.false_ne_true

end Sys2Proof.Machine
end

section
/-! PROOF. Bytes, bits and drive messages (spec/10). -/

namespace Sys2Proof.Machine

open Sys2Proof

/-! ### Bytes and their bits -/

/-- A field is put together again from its high and its low part. -/
theorem extract_append_extract {a b : Nat} (x : BitVec (a + b)) :
    x.extractLsb' b a ++ x.extractLsb' 0 b = x := by
  ext i hi
  rw [BitVec.getElem_append]
  split
  · rw [BitVec.getElem_extractLsb', Nat.zero_add, BitVec.getLsbD_eq_getElem]
  · next h =>
    rw [BitVec.getElem_extractLsb', Nat.add_sub_cancel' (not_lt.mp h), BitVec.getLsbD_eq_getElem]

@[simp] theorem halfOf_hiByte_loByte (h : Half) : halfOf (hiByte h) (loByte h) = h :=
  extract_append_extract (a := 8) (b := 8) h

/-- A byte is read back from the bits that a line carries for it. -/
theorem byteOfBits_of_byte : ∀ b : Byte,
    byteOfBits (b.getLsbD 7) (b.getLsbD 6) (b.getLsbD 5) (b.getLsbD 4) (b.getLsbD 3)
      (b.getLsbD 2) (b.getLsbD 1) (b.getLsbD 0) = b := by
  decide

/-- Bytes are read back from their bits on a line, whatever bits follow. -/
theorem bytesOfBits_lineBits (l : List Byte) (after : List Bool) :
    bytesOfBits (lineBits l ++ after) = l ++ bytesOfBits after := by
  induction l with
  | nil => rfl
  | cons b l ih =>
    calc bytesOfBits (lineBits (b :: l) ++ after)
        = bytesOfBits (byteBits b ++ (lineBits l ++ after)) := by
          rw [lineBits, List.flatMap_cons, List.append_assoc, ← lineBits]
      _ = b :: bytesOfBits (lineBits l ++ after) := by
          rw [byteBits, List.cons_append, List.cons_append, List.cons_append, List.cons_append,
            List.cons_append, List.cons_append, List.cons_append, List.cons_append, bytesOfBits,
            byteOfBits_of_byte, List.nil_append]
      _ = b :: l ++ bytesOfBits after := by rw [ih]; rfl

theorem upstreamOf_bytes (u : Upstream) (rest : List Byte) :
    upstreamOf (u.bytes ++ rest) = some u := rfl

/-! ### The check byte -/

theorem byteSum_append (l m : List Byte) : byteSum (l ++ m) = byteSum l + byteSum m := by
  induction l with
  | nil => exact (BitVec.zero_add _).symm
  | cons b l ih =>
    show b + byteSum (l ++ m) = b + byteSum l + byteSum m
    rw [ih, BitVec.add_assoc]

/-- Bytes with their check byte sum to A5h (R173). -/
theorem byteSum_withCheck (l : List Byte) : byteSum (withCheck l) = checkSum := by
  have hone : byteSum [checkByte l] = checkByte l := BitVec.add_zero _
  rw [withCheck, byteSum_append, hone, checkByte, BitVec.add_comm, BitVec.sub_add_cancel]

/-! ### Drive messages (R154, R173, R174) -/

theorem bytes_sealed (b0 b1 b2 b3 b4 b5 b6 b7 b8 : Byte) :
    (sealed b0 b1 b2 b3 b4 b5 b6 b7 b8).bytes =
      withCheck [b0, b1, b2, b3, b4, b5, b6, b7, b8] := rfl

theorem headByte_kind (k : Sys2Proof.Kind) : ∀ p : BitVec 4,
    (k.code ++ p ++ (0 : BitVec 1)).extractLsb' 1 4 = p ∧
      kindOf ((k.code ++ p ++ (0 : BitVec 1)).extractLsb' 5 3) = some k := by
  cases k <;> decide

theorem position_lt (slot : Slot) : position slot < 12 := Nat.mod_lt _ (by decide)

/-- A message with its check byte, its kind and its slot's position is read as the command of its
kind. -/
theorem decodeUpstream_sealed (slot : Slot) (k : Sys2Proof.Kind) (b1 b2 b3 b4 b5 b6 b7 b8 : Byte) :
    decodeUpstream slot (sealed (headByte k slot) b1 b2 b3 b4 b5 b6 b7 b8) =
      commandOf slot k (sealed (headByte k slot) b1 b2 b3 b4 b5 b6 b7 b8) := by
  obtain ⟨hpos, hkind⟩ := headByte_kind k (BitVec.ofNat 4 (position slot))
  have hsum : byteSum (sealed (headByte k slot) b1 b2 b3 b4 b5 b6 b7 b8).bytes = checkSum := by
    rw [bytes_sealed, byteSum_withCheck]
  have hplace : ((headByte k slot).extractLsb' 1 4).toNat = position slot := by
    rw [headByte, hpos, BitVec.toNat_ofNat]
    exact Nat.mod_eq_of_lt ((position_lt slot).trans (by decide))
  have hcode : kindOf ((headByte k slot).extractLsb' 5 3) = some k := hkind
  rw [decodeUpstream, if_neg (not_not.mpr hsum)]
  show (if ((headByte k slot).extractLsb' 1 4).toNat ≠ position slot then _ else
    match kindOf ((headByte k slot).extractLsb' 5 3) with | none => _ | some k => _) = _
  rw [if_neg (not_not.mpr hplace), hcode]

/-- The second byte of a NOTICE: tag, whether a limit is there, and the profile's top bit. -/
theorem noticeByte_fields : ∀ (tag : Tag) (b : Bool) (p : BitVec 1),
    ((tagBits tag ++ oneBit b ++ (0 : BitVec 3) ++ p).extractLsb' 5 3).toFin = tag ∧
      (tagBits tag ++ oneBit b ++ (0 : BitVec 3) ++ p).getLsbD 4 = b ∧
      (tagBits tag ++ oneBit b ++ (0 : BitVec 3) ++ p).extractLsb' 0 1 = p := by
  decide

/-- The second byte of an AMEND: tag, and whether start and scale are there. -/
theorem amendByte_fields : ∀ (tag : Tag) (b c : Bool),
    ((tagBits tag ++ oneBit b ++ oneBit c ++ (0 : BitVec 3)).extractLsb' 5 3).toFin = tag ∧
      (tagBits tag ++ oneBit b ++ oneBit c ++ (0 : BitVec 3)).getLsbD 4 = b ∧
      (tagBits tag ++ oneBit b ++ oneBit c ++ (0 : BitVec 3)).getLsbD 3 = c := by
  decide

theorem tagByte_field : ∀ tag : Tag,
    ((tagBits tag ++ (0 : BitVec 5)).extractLsb' 5 3).toFin = tag := by
  decide

/-- The second byte of a STATUS: drive state, shock flag and frame tag. -/
theorem statusByte_fields (d : DriveState) : ∀ (b : Bool) (tag : Tag),
    driveOf ((BitVec.ofNat 2 (driveCode d) ++ oneBit b ++ (0 : BitVec 2) ++
        tagBits tag).extractLsb' 6 2) = some d ∧
      (BitVec.ofNat 2 (driveCode d) ++ oneBit b ++ (0 : BitVec 2) ++ tagBits tag).getLsbD 5 = b ∧
      ((BitVec.ofNat 2 (driveCode d) ++ oneBit b ++ (0 : BitVec 2) ++
        tagBits tag).extractLsb' 0 3).toFin = tag := by
  cases d <;> decide

theorem topBit_of_append : ∀ b : BitVec 1, ((0 : BitVec 7) ++ b).extractLsb' 0 1 = b := by decide

/-- A 9-bit number is read back from the two places that carry it. -/
theorem nine_bits (x : BitVec 9) : x.extractLsb' 8 1 ++ x.extractLsb' 0 8 = x :=
  extract_append_extract (a := 1) (b := 8) x

theorem limit_readBack {m : NoticeFields} (h : m.wellFormed = true) :
    (if m.limit.isSome then some (BitVec.ofNat 9 (m.limit.getD 0)).toNat else none) = m.limit := by
  unfold NoticeFields.wellFormed at h
  split at h
  · next hl => rw [hl]; rfl
  · next l hl =>
    have hle : l ≤ 256 := of_decide_eq_true (Bool.and_eq_true_iff.mp h).2
    rw [hl, Option.getD_some, BitVec.toNat_ofNat, Nat.mod_eq_of_lt (by omega)]
    rfl

/-! ### What the fields of a message are read from -/

theorem notice_sealed (b0 b1 b2 b3 b4 b5 b6 b7 b8 : Byte) :
    (sealed b0 b1 b2 b3 b4 b5 b6 b7 b8).notice =
      ⟨(b1.extractLsb' 5 3).toFin, (b1.extractLsb' 0 1 ++ b2).toFin, halfOf b3 b4, halfOf b5 b6,
        if b1.getLsbD 4 then some (b7.extractLsb' 0 1 ++ b8).toNat else none⟩ := rfl

theorem amend_sealed (b0 b1 b2 b3 b4 b5 b6 b7 b8 : Byte) :
    (sealed b0 b1 b2 b3 b4 b5 b6 b7 b8).amend =
      ⟨(b1.extractLsb' 5 3).toFin, if b1.getLsbD 4 then some (halfOf b5 b6) else none,
        if b1.getLsbD 3 then some (halfOf b3 b4) else none⟩ := rfl

theorem status_sealed (b0 b1 b2 b3 b4 b5 b6 b7 b8 : Byte) (d : DriveState) :
    (sealed b0 b1 b2 b3 b4 b5 b6 b7 b8).status d =
      ⟨d, b1.getLsbD 5, halfOf b3 b4, (b1.extractLsb' 0 3).toFin⟩ := rfl

theorem commandOf_notice {slot : Slot} {u : Upstream} {m : NoticeFields} (hu : u.notice = m)
    (h : m.wellFormed = true) : commandOf slot .notice u = .notice slot m := by
  rw [← hu] at h ⊢
  exact if_pos h

theorem commandOf_amend {slot : Slot} {u : Upstream} {m : AmendFields} (hu : u.amend = m)
    (h : m.wellFormed = true) : commandOf slot .amend u = .amend slot m := by
  rw [← hu] at h ⊢
  exact if_pos h

theorem commandOf_status {slot : Slot} {u : Upstream} {m : StatusFields} {d : DriveState}
    (hd : driveOf (u.b1.extractLsb' 6 2) = some d) (hu : u.status d = m) :
    commandOf slot .status u = .status slot m := by
  rw [← hu, commandOf, hd]

/-! ### Reading back -/

theorem decode_notice (slot : Slot) {m : NoticeFields} (h : m.wellFormed = true) :
    (encodeUpstream (.notice slot m)).map (decodeUpstream slot) = some (.notice slot m) := by
  obtain ⟨htag, hpresent, htop⟩ := noticeByte_fields m.tag m.limit.isSome
    ((BitVec.ofNat 9 m.profile.val).extractLsb' 8 1)
  rw [encodeUpstream, Option.map_some, decodeUpstream_sealed]
  refine congrArg some (commandOf_notice ?_ h)
  rw [notice_sealed, htag, hpresent, htop, topBit_of_append, nine_bits, nine_bits,
    limit_readBack h, halfOf_hiByte_loByte, halfOf_hiByte_loByte, BitVec.toFin_ofNat]
  exact congrArg (fun p => (⟨m.tag, p, m.scale, m.start, m.limit⟩ : NoticeFields))
    (Fin.ofNat_val_eq_self (n := 512) m.profile)

/-- An optional field is read back from whether it is there and its value. -/
theorem optional_readBack (x : Option Half) :
    (if x.isSome then some (x.getD 0) else none) = x := by
  cases x <;> rfl

theorem decode_amend (slot : Slot) (tag : Tag) {start scale : Option Half}
    (h : start ≠ none ∨ scale ≠ none) :
    (encodeUpstream (.amend slot ⟨tag, start, scale⟩)).map (decodeUpstream slot) =
      some (.amend slot ⟨tag, start, scale⟩) := by
  obtain ⟨htag, hstart, hscale⟩ := amendByte_fields tag start.isSome scale.isSome
  have hwell : (⟨tag, start, scale⟩ : AmendFields).wellFormed = true :=
    Bool.or_eq_true_iff.mpr (h.imp Option.isSome_iff_ne_none.mpr Option.isSome_iff_ne_none.mpr)
  rw [encodeUpstream, Option.map_some, decodeUpstream_sealed]
  refine congrArg some (commandOf_amend ?_ hwell)
  rw [amend_sealed, htag, hstart, hscale, halfOf_hiByte_loByte, halfOf_hiByte_loByte,
    optional_readBack, optional_readBack]

theorem decode_withdraw (slot : Slot) (tag : Tag) :
    (encodeUpstream (.withdraw slot tag)).map (decodeUpstream slot) =
      some (.withdraw slot tag) := by
  rw [encodeUpstream, Option.map_some, decodeUpstream_sealed]
  exact congrArg (fun t => some (Instr.withdraw slot t)) (tagByte_field tag)

theorem decode_close (slot : Slot) (tag : Tag) (stamp : Half) :
    (encodeUpstream (.close slot tag stamp)).map (decodeUpstream slot) =
      some (.close slot tag stamp) := by
  rw [encodeUpstream, Option.map_some, decodeUpstream_sealed]
  exact congrArg₂ (fun t x => some (Instr.close slot t x)) (tagByte_field tag)
    (halfOf_hiByte_loByte stamp)

theorem decode_status (slot : Slot) (m : StatusFields) :
    (encodeUpstream (.status slot m)).map (decodeUpstream slot) = some (.status slot m) := by
  obtain ⟨hdrive, hshock, htag⟩ := statusByte_fields m.drive m.shock m.frameTag
  rw [encodeUpstream, Option.map_some, decodeUpstream_sealed]
  refine congrArg some (commandOf_status hdrive ?_)
  rw [status_sealed, hshock, htag, halfOf_hiByte_loByte]

/-! ### Malformed messages (R154) -/

/-- The kinds that R174 does not list are 0, 6 and 7. -/
theorem kindOf_eq_none : ∀ b : Byte, kindOf (b.extractLsb' 5 3) = none ↔
    (b >>> 5) = 0 ∨ (b >>> 5) = 6 ∨ (b >>> 5) = 7 := by
  decide

/-- A listed kind has its number in the top bits of the first byte. -/
theorem shift_of_kindOf (k : Sys2Proof.Kind) : ∀ b : Byte, kindOf (b.extractLsb' 5 3) = some k →
    (b >>> 5) = k.code.setWidth 8 := by
  cases k <;> decide

theorem position_shift : ∀ b : Byte,
    ((b >>> 1) &&& 0x0F).toNat = (b.extractLsb' 1 4).toNat := by
  decide

theorem bit4_iff : ∀ b : Byte, b.getLsbD 4 = true ↔ b &&& 0x10 ≠ 0 := by decide

theorem bits43_iff : ∀ b : Byte, (b.getLsbD 4 = false ∧ b.getLsbD 3 = false) ↔ b &&& 0x18 = 0 := by
  decide

theorem driveOf_eq_none : ∀ b : Byte, driveOf (b.extractLsb' 6 2) = none ↔ (b >>> 6) = 3 := by
  decide

theorem lowBit_toNat : ∀ b : Byte, (b.extractLsb' 0 1).toNat = (b &&& 1).toNat := by decide

theorem limit_toNat (b7 b8 : Byte) :
    (b7.extractLsb' 0 1 ++ b8).toNat = (b7 &&& 1).toNat * 256 + b8.toNat := by
  rw [BitVec.toNat_append, lowBit_toNat, ← Nat.shiftLeft_add_eq_or_of_lt b8.isLt, Nat.shiftLeft_eq]

/-- A NOTICE is malformed where it carries a limit outside 1 to 256. -/
theorem notice_malformed (u : Upstream) : u.notice.wellFormed = false ↔
    u.b1 &&& 0x10 ≠ 0 ∧ ((u.b7 &&& 1).toNat * 256 + u.b8.toNat = 0 ∨
      256 < (u.b7 &&& 1).toNat * 256 + u.b8.toNat) := by
  have hlimit : u.notice.limit =
      if u.b1.getLsbD 4 then some ((u.b7 &&& 1).toNat * 256 + u.b8.toNat) else none := by
    rw [← limit_toNat]
    rfl
  rw [NoticeFields.wellFormed, hlimit, ← bit4_iff]
  by_cases h : u.b1.getLsbD 4 = true
  · simp only [h, if_true, Bool.and_eq_false_iff, decide_eq_false_iff_not, true_and]
    omega
  · rw [if_neg h]
    exact ⟨nofun, fun hand => absurd hand.1 h⟩

/-- An AMEND is malformed where it carries neither start nor scale. -/
theorem amend_malformed (u : Upstream) : u.amend.wellFormed = false ↔ u.b1 &&& 0x18 = 0 := by
  have hfields : u.amend.wellFormed = (u.b1.getLsbD 4 || u.b1.getLsbD 3) := by
    rw [AmendFields.wellFormed, Upstream.amend]
    cases u.b1.getLsbD 4 <;> cases u.b1.getLsbD 3 <;> rfl
  rw [hfields, Bool.or_eq_false_iff, bits43_iff]

/-- The command of a kind is malformed exactly where one of the kind's encodings fails. -/
def encodingFails (k : Sys2Proof.Kind) (u : Upstream) : Prop :=
  match k with
  | .notice => u.b1 &&& 0x10 ≠ 0 ∧ ((u.b7 &&& 1).toNat * 256 + u.b8.toNat = 0 ∨
      256 < (u.b7 &&& 1).toNat * 256 + u.b8.toNat)
  | .amend => u.b1 &&& 0x18 = 0
  | .withdraw => False
  | .close => False
  | .status => (u.b1 >>> 6) = 3

theorem commandOf_malformed (slot : Slot) (k : Sys2Proof.Kind) (u : Upstream) :
    commandOf slot k u = .malformedMessage slot ↔ encodingFails k u := by
  cases k with
  | notice =>
    rw [encodingFails, ← notice_malformed, commandOf]
    by_cases h : u.notice.wellFormed = true
    · rw [if_pos h, h]
      exact ⟨nofun, nofun⟩
    · rw [if_neg h]
      exact ⟨fun _ => Bool.eq_false_iff.mpr h, fun _ => rfl⟩
  | amend =>
    rw [encodingFails, ← amend_malformed, commandOf]
    by_cases h : u.amend.wellFormed = true
    · rw [if_pos h, h]
      exact ⟨nofun, nofun⟩
    · rw [if_neg h]
      exact ⟨fun _ => Bool.eq_false_iff.mpr h, fun _ => rfl⟩
  | withdraw => exact ⟨nofun, False.elim⟩
  | close => exact ⟨nofun, False.elim⟩
  | status =>
    rw [encodingFails, ← driveOf_eq_none, commandOf]
    cases driveOf (u.b1.extractLsb' 6 2) with
    | none => exact ⟨fun _ => rfl, fun _ => rfl⟩
    | some d => exact ⟨nofun, nofun⟩

/-- The tests of one kind stand for those of all, where the kind is known. -/
theorem encodingFails_iff {k : Sys2Proof.Kind} {u : Upstream}
    (h : kindOf (u.b0.extractLsb' 5 3) = some k) : encodingFails k u ↔
      ((u.b0 >>> 5) = 1 ∧ u.b1 &&& 0x10 ≠ 0 ∧
          ((u.b7 &&& 1).toNat * 256 + u.b8.toNat = 0 ∨
            256 < (u.b7 &&& 1).toNat * 256 + u.b8.toNat)) ∨
        ((u.b0 >>> 5) = 2 ∧ u.b1 &&& 0x18 = 0) ∨ ((u.b0 >>> 5) = 5 ∧ (u.b1 >>> 6) = 3) := by
  rw [shift_of_kindOf k u.b0 h]
  cases k <;> simp [encodingFails, Sys2Proof.Kind.code]

theorem decodeUpstream_malformed (slot : Slot) (u : Upstream) :
    decodeUpstream slot u = .malformedMessage slot ↔
      (byteSum u.bytes ≠ 0xA5 ∨
        ((u.b0 >>> 5) = 0 ∨ (u.b0 >>> 5) = 6 ∨ (u.b0 >>> 5) = 7) ∨
        ((u.b0 >>> 1) &&& 0x0F).toNat ≠ slot.val % 12 ∨
        ((u.b0 >>> 5) = 1 ∧ u.b1 &&& 0x10 ≠ 0 ∧
          ((u.b7 &&& 1).toNat * 256 + u.b8.toNat = 0 ∨
            256 < (u.b7 &&& 1).toNat * 256 + u.b8.toNat)) ∨
        ((u.b0 >>> 5) = 2 ∧ u.b1 &&& 0x18 = 0) ∨
        ((u.b0 >>> 5) = 5 ∧ (u.b1 >>> 6) = 3)) := by
  rw [position_shift, ← kindOf_eq_none, decodeUpstream]
  by_cases hsum : byteSum u.bytes ≠ checkSum
  · rw [if_pos hsum]
    exact ⟨fun _ => .inl hsum, fun _ => rfl⟩
  · rw [if_neg hsum]
    by_cases hpos : (u.b0.extractLsb' 1 4).toNat ≠ position slot
    · rw [if_pos hpos]
      exact ⟨fun _ => .inr (.inr (.inl hpos)), fun _ => rfl⟩
    · rw [if_neg hpos]
      cases hkind : kindOf (u.b0.extractLsb' 5 3) with
      | none => exact ⟨fun _ => .inr (.inl rfl), fun _ => rfl⟩
      | some k =>
        show commandOf slot k u = _ ↔ _
        rw [commandOf_malformed, encodingFails_iff hkind]
        exact ⟨fun h => .inr (.inr (.inr h)), fun h => h.resolve_left hsum |>.resolve_left nofun
          |>.resolve_left hpos⟩

/-- Settles O14, kind by kind; on the line by the bits of each byte. -/
theorem upstreamMessagesReadBackOrAreMalformed :
    Obligations.UpstreamMessagesReadBackOrAreMalformed := by
  unfold Obligations.UpstreamMessagesReadBackOrAreMalformed
  refine ⟨⟨fun slot m h => decode_notice slot h, fun slot tag _ _ h => decode_amend slot tag h,
    decode_withdraw, decode_close, decode_status⟩, decodeUpstream_malformed, fun u after => ?_⟩
  rw [bytesOfBits_lineBits, upstreamOf_bytes]

/-- Settles O18: the words are read by evaluation. -/
theorem sampleWordsReadAsTheirCommands : Obligations.SampleWordsReadAsTheirCommands := by
  unfold Obligations.SampleWordsReadAsTheirCommands
  decide

end Sys2Proof.Machine
end

section
/-! PROOF. Sensor words and profile pages (spec/10.2, 10.3). -/

namespace Sys2Proof.Machine

open Sys2Proof

/-! ### Fields of an appended word -/

theorem extract_high {a b : Nat} (x : BitVec a) (y : BitVec b) :
    (x ++ y).extractLsb' b a = x := by
  ext i hi
  rw [BitVec.getElem_extractLsb', BitVec.getLsbD_append, if_neg (by omega), Nat.add_sub_cancel_left,
    BitVec.getLsbD_eq_getElem]

theorem extract_low {a b : Nat} (x : BitVec a) (y : BitVec b) :
    (x ++ y).extractLsb' 0 b = y := by
  ext i hi
  rw [BitVec.getElem_extractLsb', BitVec.getLsbD_append, if_pos (by omega), Nat.zero_add,
    BitVec.getLsbD_eq_getElem]

/-- A field of the high part stands as far above its own place as the low part is wide. -/
theorem extract_within_high {a b k n : Nat} (x : BitVec a) (y : BitVec b) :
    (x ++ y).extractLsb' (b + k) n = x.extractLsb' k n := by
  ext i hi
  rw [BitVec.getElem_extractLsb', BitVec.getLsbD_append, if_neg (by omega),
    BitVec.getElem_extractLsb']
  congr 1
  omega

/-! ### Sensor words (R175) -/

theorem decodeSensor_channelWord (tag : BitVec 6) (value : Half) :
    decodeSensor ((1 : BitVec 2) ++ tag ++ value) true = .channelWord tag value := by
  have htype : ((1 : BitVec 2) ++ tag ++ value).extractLsb' 22 2 = 1 :=
    (extract_within_high (k := 6) (n := 2) ((1 : BitVec 2) ++ tag) value).trans
      (extract_high (1 : BitVec 2) tag)
  have htag : ((1 : BitVec 2) ++ tag ++ value).extractLsb' 16 6 = tag :=
    (extract_within_high (k := 0) (n := 6) ((1 : BitVec 2) ++ tag) value).trans
      (extract_low (1 : BitVec 2) tag)
  have hvalue : ((1 : BitVec 2) ++ tag ++ value).extractLsb' 0 16 = value :=
    extract_low ((1 : BitVec 2) ++ tag) value
  rw [decodeSensor, if_neg (by decide), htype, htag, hvalue]
  rfl

theorem decodeSensor_sweepEnd (stamp : Half) :
    decodeSensor ((2 : BitVec 2) ++ (0 : BitVec 6) ++ stamp) true = .sweepEnd stamp := by
  have htype : ((2 : BitVec 2) ++ (0 : BitVec 6) ++ stamp).extractLsb' 22 2 = 2 :=
    (extract_within_high (k := 6) (n := 2) ((2 : BitVec 2) ++ (0 : BitVec 6)) stamp).trans
      (extract_high (2 : BitVec 2) (0 : BitVec 6))
  have hvalue : ((2 : BitVec 2) ++ (0 : BitVec 6) ++ stamp).extractLsb' 0 16 = stamp :=
    extract_low ((2 : BitVec 2) ++ (0 : BitVec 6)) stamp
  rw [decodeSensor, if_neg (by decide), htype, hvalue]
  rfl

/-- The type of a word is what stands above its 22 lower bits. -/
theorem type_toNat (w : BitVec 24) : (w.extractLsb' 22 2).toNat = (w >>> 22).toNat := by
  have hlt : w.toNat >>> 22 < 2 ^ 2 := by
    have := w.isLt
    rw [Nat.shiftRight_eq_div_pow]
    omega
  rw [BitVec.extractLsb'_toNat, BitVec.toNat_ushiftRight, Nat.mod_eq_of_lt hlt]

theorem decodeSensor_discarded (w : BitVec 24) (stop : Bool) :
    decodeSensor w stop = .discardedWord ↔ (stop = false ∨ w >>> 22 = 0 ∨ w >>> 22 = 3) := by
  have hlt : (w.extractLsb' 22 2).toNat < 4 := (w.extractLsb' 22 2).isLt
  have htype : (w >>> 22 = 0 ∨ w >>> 22 = 3) ↔
      ((w.extractLsb' 22 2).toNat = 0 ∨ (w.extractLsb' 22 2).toNat = 3) := by
    rw [type_toNat, ← BitVec.toNat_inj, ← BitVec.toNat_inj]
    rfl
  rw [htype, decodeSensor]
  by_cases h : stop = false
  · rw [if_pos h]
    exact ⟨fun _ => .inl h, fun _ => rfl⟩
  · rw [if_neg h]
    generalize (w.extractLsb' 22 2).toNat = n at hlt ⊢
    interval_cases n <;> simp [h]

/-! ### The sensor line (R175) -/

theorem length_sensorBits (w : BitVec 24) (stop : Bool) : (sensorBits w stop).length = 26 := by
  simp [sensorBits]

theorem sensorBits_data (w : BitVec 24) (stop : Bool) {i : Nat} (h : i < 24) :
    (sensorBits w stop)[1 + i]? = some (w.getLsbD (23 - i)) := by
  rw [sensorBits, List.cons_append, Nat.add_comm, List.getElem?_cons_succ,
    List.getElem?_append_left (by simpa using h), List.getElem?_map, List.getElem?_eq_getElem (by simpa using h)]
  simp [BitVec.getMsbD]

theorem sensorBits_stop (w : BitVec 24) (stop : Bool) :
    (sensorBits w stop)[25]? = some stop := by
  rw [sensorBits, List.cons_append, List.getElem?_cons_succ, List.getElem?_append_right (by simp)]
  simp

/-- The data that a receiver holds once the word's first n bits have been sampled grows by one. -/
theorem shift_step (w : BitVec 24) {n : Nat} (h : n < 24) :
    (w >>> (24 - n)).extractLsb' 0 23 ++ BitVec.ofBool (w.getMsbD n) = w >>> (24 - (n + 1)) := by
  ext i hi
  rw [BitVec.getElem_append, BitVec.getElem_ushiftRight]
  split
  · next h0 =>
    obtain rfl : i = 0 := by omega
    rw [BitVec.getElem_ofBool, BitVec.getMsbD, decide_eq_true h, Bool.true_and, Nat.add_zero,
      show 24 - 1 - n = 24 - (n + 1) by omega]
  · next h0 =>
    rw [BitVec.getElem_extractLsb', BitVec.getLsbD_ushiftRight]
    congr 1
    omega

/-- A receiver that has sampled a word's first n data bits receives the word with its stop bit. -/
theorem words_of_data (w : BitVec 24) (stop : Bool) (after : List Bool) (k : Nat) (hk : k ≤ 24) :
    (SensorReceiver.word (24 - k) (w >>> k)).words
      (((List.finRange 24).map fun i => w.getMsbD i.val).drop (24 - k) ++ stop :: after) =
        decodeSensor w stop :: SensorReceiver.idle.words after := by
  induction k with
  | zero =>
    rw [List.drop_eq_nil_of_le (by simp), List.nil_append, SensorReceiver.words,
      SensorReceiver.bit, if_neg (by omega), BitVec.ushiftRight_zero]
    rfl
  | succ k ih =>
    have hlt : 24 - (k + 1) < 24 := by omega
    rw [List.drop_eq_getElem_cons (by simpa using hlt), List.cons_append, SensorReceiver.words,
      SensorReceiver.bit, if_pos hlt]
    have hdata := shift_step w hlt
    rw [show 24 - (24 - (k + 1)) = k + 1 by omega,
      show 24 - (24 - (k + 1) + 1) = k by omega] at hdata
    have hnext := ih (by omega)
    rw [show 24 - k = 24 - (k + 1) + 1 by omega] at hnext
    rw [← hdata] at hnext
    simpa using hnext

/-- While the line reads 1 no word begins. -/
theorem words_between (between : Nat) (l : List Bool) :
    SensorReceiver.idle.words (List.replicate between true ++ l) = SensorReceiver.idle.words l := by
  induction between with
  | zero => rfl
  | succ n ih => exact ih

/-- A word on the line is received with its stop bit (R175). -/
theorem words_sensorBits (w : BitVec 24) (stop : Bool) (between : Nat) (after : List Bool) :
    SensorReceiver.idle.words (List.replicate between true ++ sensorBits w stop ++ after) =
      decodeSensor w stop :: SensorReceiver.idle.words after := by
  have hstart : w >>> 24 = 0 := BitVec.ushiftRight_eq_zero (le_refl 24)
  have h := words_of_data w stop after 24 (le_refl 24)
  rw [List.append_assoc, words_between, sensorBits, List.cons_append, List.cons_append,
    List.append_assoc]
  rw [hstart] at h
  exact h

/-- Before its stop bit a word brings nothing. -/
theorem words_of_short (l : List Bool) (n : Nat) (data : BitVec 24) (h : n + l.length ≤ 24) :
    (SensorReceiver.word n data).words l = [] := by
  induction l generalizing n data with
  | nil => rfl
  | cons b l ih =>
    rw [List.length_cons] at h
    rw [SensorReceiver.words, SensorReceiver.bit, if_pos (by omega)]
    exact ih _ _ (by omega)

theorem words_take (w : BitVec 24) (stop : Bool) {n : Nat} (h : n < 26) :
    SensorReceiver.idle.words ((sensorBits w stop).take n) = [] := by
  cases n with
  | zero => rfl
  | succ n =>
    rw [sensorBits, List.cons_append, List.take_succ_cons]
    refine words_of_short _ 0 0 ?_
    rw [Nat.zero_add]
    exact (List.length_take_le _ _).trans (by omega)

/-! ### Pages (R29, R30) -/

theorem halvesOf_flatMap (l : List Half) (rest : List Byte) :
    halvesOf (l.flatMap halfBytes ++ rest) = l ++ halvesOf rest := by
  induction l with
  | nil => rfl
  | cons h l ih =>
    rw [List.flatMap_cons, halfBytes, List.append_assoc, List.cons_append, List.cons_append,
      List.nil_append, halvesOf, ih]
    exact congrArg (· :: (l ++ halvesOf rest)) (halfOf_hiByte_loByte h)

theorem halfSum_toNat (l : List Half) : (halfSum l).toNat = (l.map BitVec.toNat).sum % 65536 := by
  induction l with
  | nil => rfl
  | cons h l ih =>
    have hstep : halfSum (h :: l) = h + halfSum l := rfl
    rw [hstep, BitVec.toNat_add, ih, List.map_cons, List.sum_cons, Nat.add_mod_mod]

/-- A page is good exactly where its marker, its length and its check pass (R30). -/
theorem goodPage_iff (marker len check : Half) (rest p : List Half) :
    goodPage (marker :: len :: check :: rest) = some p ↔
      (marker = 0x6D31 ∧ 1 ≤ len.toNat ∧ len.toNat ≤ 256 ∧ len.toNat ≤ rest.length ∧
        p = rest.take len.toNat ∧
        (len.toNat + (p.map BitVec.toNat).sum) % 65536 = check.toNat) := by
  have hcheck : ∀ q : List Half, len + halfSum q = check ↔
      (len.toNat + (q.map BitVec.toNat).sum) % 65536 = check.toNat := fun q => by
    rw [← BitVec.toNat_inj, BitVec.toNat_add, halfSum_toNat, Nat.add_mod_mod]
  have hlength : (rest.take len.toNat).length = len.toNat ↔ len.toNat ≤ rest.length := by
    rw [List.length_take]
    exact min_eq_left_iff
  rw [goodPage]
  simp only [hcheck, hlength, Option.ite_none_right_eq_some, Option.some.injEq]
  constructor
  · rintro ⟨⟨hm, h1, h256, hl, hc⟩, rfl⟩
    exact ⟨hm, h1, h256, hl, rfl, hc⟩
  · rintro ⟨hm, h1, h256, hl, rfl, hc⟩
    exact ⟨⟨hm, h1, h256, hl, hc⟩, rfl⟩

theorem decodePage_encodePage (p : List Half) (rest : List Byte) (h1 : 1 ≤ p.length)
    (h256 : p.length ≤ 256) :
    decodePage ((encodePage p).flatMap halfBytes ++ rest) = .fetchCompleteGood p := by
  have hlen : (BitVec.ofNat 16 p.length).toNat = p.length :=
    (BitVec.toNat_ofNat ..).trans (Nat.mod_eq_of_lt (by omega))
  have hgood : goodPage (encodePage p ++ halvesOf rest) = some p := by
    refine (goodPage_iff _ _ _ _ _).mpr ⟨rfl, hlen.symm ▸ h1, hlen.symm ▸ h256, ?_, ?_, ?_⟩
    · rw [hlen]
      exact List.length_append.symm ▸ Nat.le_add_right ..
    · rw [hlen]
      exact List.take_left.symm
    · rw [BitVec.toNat_add, halfSum_toNat, Nat.add_mod_mod]
  rw [decodePage, halvesOf_flatMap, hgood]

/-- Settles O15: words by their fields and by the receiver's shifts, pages by the three tests. -/
theorem sensorWordsAndPagesAreReadByTheirTests :
    Obligations.SensorWordsAndPagesAreReadByTheirTests := by
  unfold Obligations.SensorWordsAndPagesAreReadByTheirTests
  refine ⟨⟨fun tag value => congrArg some (decodeSensor_channelWord tag value),
    fun stamp => congrArg some (decodeSensor_sweepEnd stamp), decodeSensor_discarded,
    fun s hs => afterEvents_of_ready _ hs, fun w stop => ⟨⟨length_sensorBits w stop, rfl,
      fun i hi => sensorBits_data w stop hi, sensorBits_stop w stop⟩, words_sensorBits w stop,
      fun n hn => words_take w stop hn⟩⟩, decodePage_encodePage, goodPage_iff⟩

end Sys2Proof.Machine
end

section
/-! PROOF. Management frames, and what the part sends (spec/10.1, 10.4). -/

namespace Sys2Proof.Machine

open Sys2Proof

/-! ### Payloads read back -/

theorem unitBytes_readBack (p : Payload Unit) (l : List Byte) (h : unitBytes p = some l) :
    l.length < 256 ∧ payload0 l = p := by
  cases p with
  | fields a =>
    obtain rfl := Option.some.inj h
    exact ⟨by decide, rfl⟩
  | wrongLength => cases h

theorem oneByte_readBack (p : Payload Byte) (l : List Byte) (h : oneByte p = some l) :
    l.length < 256 ∧ payload1 l = p := by
  cases p with
  | fields a =>
    obtain rfl := Option.some.inj h
    exact ⟨by simp, rfl⟩
  | wrongLength => cases h

theorem halfPayload_readBack (p : Payload Half) (l : List Byte) (h : halfPayload p = some l) :
    l.length < 256 ∧ payloadHalf l = p := by
  cases p with
  | fields a =>
    obtain rfl := Option.some.inj h
    exact ⟨by simp, congrArg Payload.fields (halfOf_hiByte_loByte a)⟩
  | wrongLength => cases h

theorem forceBytes_readBack (p : Payload ForceArgs) (l : List Byte) (h : forceBytes p = some l) :
    l.length < 256 ∧ payloadForce l = p := by
  cases p with
  | fields a =>
    obtain rfl := Option.some.inj h
    exact ⟨by simp, rfl⟩
  | wrongLength => cases h

theorem rawEntries_readBack (l : List RawEntry) : rawEntries (l.flatMap RawEntry.bytes) = some l := by
  induction l with
  | nil => rfl
  | cons e l ih =>
    show (rawEntries (l.flatMap RawEntry.bytes)).map _ = _
    rw [ih, Option.map_some]
    exact congrArg (fun g => some (⟨e.target, g, e.delay⟩ :: l)) (halfOf_hiByte_loByte e.gain)

theorem length_entryBytes (l : List RawEntry) : (l.flatMap RawEntry.bytes).length = 4 * l.length := by
  induction l with
  | nil => rfl
  | cons e l ih =>
    rw [List.flatMap_cons, List.length_append, ih, List.length_cons]
    show 4 + _ = _
    omega

/-! ### Frames read back (R164) -/

/-- A command whose payload's bytes are read back is read back from its code and payload. -/
theorem command_of_parts {α : Type} {bytesOf : Payload α → Option (List Byte)}
    {read : List Byte → Payload α} {make : Payload α → Instr} {c code : Byte} {l : List Byte}
    {p : Payload α} (hread : ∀ p l, bytesOf p = some l → l.length < 256 ∧ read l = p)
    (hcode : ∀ l, commandOfCode c l = make (read l))
    (h : (bytesOf p).map (fun l => (c, l)) = some (code, l)) :
    l.length < 256 ∧ commandOfCode code l = make p := by
  obtain ⟨l', hl, he⟩ := Option.map_eq_some_iff.mp h
  obtain ⟨rfl, rfl⟩ := Prod.mk.injEq .. ▸ he
  obtain ⟨hlen, hp⟩ := hread p l' hl
  exact ⟨hlen, (hcode l').trans (congrArg make hp)⟩

/-- A command whose payload has one length is read back from its code and payload. -/
theorem command_of_fields {i : Instr} {c code : Byte} {l l' : List Byte} (hlen : l.length < 256)
    (hcode : commandOfCode c l = i) (h : some (c, l) = some (code, l')) :
    l'.length < 256 ∧ commandOfCode code l' = i := by
  obtain ⟨rfl, rfl⟩ := Prod.mk.injEq .. ▸ Option.some.inj h
  exact ⟨hlen, hcode⟩

theorem frameParts_readBack {i : Instr} {code : Byte} {l : List Byte} (hi : i.wellFormed = true)
    (h : frameParts i = some (code, l)) : l.length < 256 ∧ commandOfCode code l = i := by
  cases i with
  | identify p => exact command_of_parts unitBytes_readBack (fun _ => rfl) h
  | readFlags p => exact command_of_parts unitBytes_readBack (fun _ => rfl) h
  | setAlertMask p => exact command_of_parts halfPayload_readBack (fun _ => rfl) h
  | settingWrite p =>
    cases p with
    | wrongLength => cases h
    | fields a =>
      refine command_of_fields (by simp) ?_ h
      exact congrArg (fun v => Instr.settingWrite (.fields (a.1, ⟨a.2.choice, a.2.station, v⟩)))
        (halfOf_hiByte_loByte a.2.value)
  | settingRead p =>
    cases p with
    | wrongLength => cases h
    | fields a => exact command_of_fields (by simp) rfl h
  | listWrite p =>
    cases p with
    | wrongLength => cases h
    | fields a =>
      have hlen : a.entries.length ≤ 63 := of_decide_eq_true hi
      refine command_of_fields ?_ ?_ h
      · rw [List.length_cons, length_entryBytes]
        omega
      · show Instr.listWrite (payloadListWrite (a.source :: a.entries.flatMap RawEntry.bytes)) = _
        rw [payloadListWrite, rawEntries_readBack]
  | listRead p =>
    cases p with
    | wrongLength => cases h
    | fields a => exact command_of_fields (by simp) rfl h
  | capture p => exact command_of_parts unitBytes_readBack (fun _ => rfl) h
  | swapCancel p => exact command_of_parts unitBytes_readBack (fun _ => rfl) h
  | sourceQuery p =>
    cases p with
    | wrongLength => cases h
    | fields a => exact command_of_fields (by simp) rfl h
  | sourceList p =>
    cases p with
    | wrongLength => cases h
    | fields a => exact command_of_fields (by simp) rfl h
  | targetRead p => exact command_of_parts oneByte_readBack (fun _ => rfl) h
  | stationRead p => exact command_of_parts oneByte_readBack (fun _ => rfl) h
  | cacheRead p => exact command_of_parts unitBytes_readBack (fun _ => rfl) h
  | preload p => exact command_of_parts halfPayload_readBack (fun _ => rfl) h
  | retry p => exact command_of_parts halfPayload_readBack (fun _ => rfl) h
  | swapRequest p => exact command_of_parts unitBytes_readBack (fun _ => rfl) h
  | drop p => exact command_of_parts halfPayload_readBack (fun _ => rfl) h
  | lend p => exact command_of_parts unitBytes_readBack (fun _ => rfl) h
  | reclaim p => exact command_of_parts unitBytes_readBack (fun _ => rfl) h
  | forcePresence p => exact command_of_parts forceBytes_readBack (fun _ => rfl) h
  | forceLock p => exact command_of_parts forceBytes_readBack (fun _ => rfl) h
  | suppressClear p => exact command_of_parts oneByte_readBack (fun _ => rfl) h
  | holdShorten p => exact command_of_parts oneByte_readBack (fun _ => rfl) h
  | restartWarm p => exact command_of_parts unitBytes_readBack (fun _ => rfl) h
  | restartCold p => exact command_of_parts unitBytes_readBack (fun _ => rfl) h
  | _ => cases h

theorem decodeFrame_encodeFrame {i : Instr} {bytes : List Byte} (extra : List Byte)
    (hi : i.wellFormed = true) (h : encodeFrame i = some bytes) :
    decodeFrame (bytes ++ extra) = some i := by
  obtain ⟨⟨code, l⟩, hparts, rfl⟩ := Option.map_eq_some_iff.mp h
  obtain ⟨hlen, hcode⟩ := frameParts_readBack hi hparts
  have hn : (BitVec.ofNat 8 l.length).toNat = l.length :=
    (BitVec.toNat_ofNat ..).trans (Nat.mod_eq_of_lt hlen)
  show decodeFrame (code :: BitVec.ofNat 8 l.length :: (l ++ extra)) = _
  rw [decodeFrame, hn, if_neg (by rw [List.length_append]; omega), List.take_left, hcode]

/-- Fewer than 8n bits bring fewer than n bytes. -/
theorem length_bytesOfBits (n : Nat) (bits : List Bool) (h : bits.length < 8 * n) :
    (bytesOfBits bits).length < n := by
  induction n generalizing bits with
  | zero => omega
  | succ n ih =>
    unfold bytesOfBits
    split
    · next rest =>
      simp only [List.length_cons] at h ⊢
      exact Nat.succ_lt_succ (ih rest (by omega))
    · exact Nat.succ_pos n

theorem decodeFrame_of_short {l : List Byte} (h : l.length < 2) : decodeFrame l = none := by
  match l, h with
  | [], _ => rfl
  | [_], _ => rfl
  | _ :: _ :: _, h => exact absurd h (by simp)

theorem toNat_of_bits : ∀ b : Byte, b.toNat = 128 * (b.getLsbD 7).toNat +
    64 * (b.getLsbD 6).toNat + 32 * (b.getLsbD 5).toNat + 16 * (b.getLsbD 4).toNat +
    8 * (b.getLsbD 3).toNat + 4 * (b.getLsbD 2).toNat + 2 * (b.getLsbD 1).toNat +
    (b.getLsbD 0).toNat := by
  decide

/-- Settles O16, command by command; what stands beyond the frame's length is not read. -/
theorem managementFramesReadBack : Obligations.ManagementFramesReadBack := by
  unfold Obligations.ManagementFramesReadBack
  refine ⟨fun i bytes extra hi h => decodeFrame_encodeFrame extra hi h,
    fun i bytes extra hi h => ?_, fun bits h => ?_, fun b => ?_⟩
  · rw [bytesOfBits_lineBits]
    exact decodeFrame_encodeFrame _ hi h
  · exact decodeFrame_of_short (length_bytesOfBits 2 bits h)
  · exact ⟨_, _, _, _, _, _, _, _, rfl, toNat_of_bits b⟩

end Sys2Proof.Machine
end

section
/-! PROOF. BEACON, FEED and responses as bytes and bits (spec/10.1, 10.4). -/

namespace Sys2Proof.Machine

open Sys2Proof

/-! ### Lines and checks -/

theorem length_lineBits (l : List Byte) : (lineBits l).length = 8 * l.length := by
  induction l with
  | nil => rfl
  | cons b l ih =>
    rw [lineBits, List.flatMap_cons, List.length_append, ← lineBits, ih, List.length_cons]
    show 8 + _ = _
    omega

/-- The line carries each byte most significant bit first (10.1). -/
theorem lineBits_getElem (l : List Byte) (i : Nat) {j : Nat} (hj : j < 8) :
    (lineBits l)[8 * i + j]? = (l[i]?).map (·.getLsbD (7 - j)) := by
  have hbyte : ∀ b : Byte, (byteBits b)[j]? = some (b.getLsbD (7 - j)) := fun b => by
    interval_cases j <;> rfl
  induction l generalizing i with
  | nil => rfl
  | cons b l ih =>
    rw [lineBits, List.flatMap_cons, ← lineBits]
    cases i with
    | zero => rw [List.getElem?_append_left (by simpa [byteBits] using hj), Nat.mul_zero,
        Nat.zero_add, hbyte, List.getElem?_cons_zero, Option.map_some]
    | succ i =>
      rw [List.getElem?_append_right (by simp only [byteBits, List.length_cons, List.length_nil]; omega),
        List.getElem?_cons_succ, ← ih i]
      congr 1
      simp only [byteBits, List.length_cons, List.length_nil]
      omega

theorem byteSum_toNat (l : List Byte) : (byteSum l).toNat = (l.map BitVec.toNat).sum % 256 := by
  induction l with
  | nil => rfl
  | cons b l ih =>
    have hstep : byteSum (b :: l) = b + byteSum l := rfl
    rw [hstep, BitVec.toNat_add, ih, List.map_cons, List.sum_cons, Nat.add_mod_mod]

theorem sum_withCheck (l : List Byte) : ((withCheck l).map BitVec.toNat).sum % 256 = 0xA5 := by
  rw [← byteSum_toNat, byteSum_withCheck]
  rfl

/-! ### Fields of two bytes -/

/-- A number in two bytes, most significant first. -/
theorem countBytes_eq (n : Nat) : countBytes n = [BitVec.ofNat 8 (n / 256), BitVec.ofNat 8 n] := by
  rw [countBytes, halfBytes, List.cons.injEq, List.cons.injEq]
  refine ⟨BitVec.eq_of_toNat_eq ?_, BitVec.eq_of_toNat_eq ?_, rfl⟩
  · rw [BitVec.extractLsb'_toNat, BitVec.toNat_ofNat, BitVec.toNat_ofNat, Nat.shiftRight_eq_div_pow]
    omega
  · rw [BitVec.extractLsb'_toNat, BitVec.toNat_ofNat, BitVec.toNat_ofNat, Nat.shiftRight_zero]
    omega

theorem length_intBytes (l : List Int) : (l.flatMap intBytes).length = 2 * l.length := by
  induction l with
  | nil => rfl
  | cons x l ih =>
    rw [List.flatMap_cons, List.length_append, ih, List.length_cons]
    show 2 + _ = _
    omega

/-- The i-th of signed values stands in the bytes 2i and 2i + 1. -/
theorem intBytes_getElem (l : List Int) (i : Nat) (h : i < l.length) :
    (l.flatMap intBytes)[2 * i]? = some ((BitVec.ofInt 16 l[i]).extractLsb' 8 8) ∧
      (l.flatMap intBytes)[2 * i + 1]? = some ((BitVec.ofInt 16 l[i]).extractLsb' 0 8) := by
  induction l generalizing i with
  | nil => cases h
  | cons x l ih =>
    cases i with
    | zero => exact ⟨rfl, rfl⟩
    | succ i => exact ih i (by simpa using h)

theorem toInt_ofInt_of_bounds {x : Int} (h1 : -32768 ≤ x) (h2 : x ≤ 32767) :
    (BitVec.ofInt 16 x).toInt = x := by
  rw [BitVec.toInt_ofInt]
  exact Int.bmod_eq_of_le (by omega) (by omega)

/-! ### BEACON and FEED (R173, R174) -/

theorem bankByte (name : BankName) : byteOf name.code = if name = .a then 0 else 1 := by
  cases name <;> rfl

theorem replyOf_code (r : Reply) :
    [Reply.none, .taken, .takenLate, .notPresent, .tagInUse, .slotLimit, .profileBad, .tooFar,
      .stale, .full, .busy, .tooLate, .unknownTag, .alreadyEnded,
      .notRunning][(byteOf r.code).toNat]? = some r := by
  cases r <;> rfl

theorem flagByte_toNat : ∀ (tag : Fin 8) (a b c d e : Bool),
    (byteOf tag.val <<< 5 ||| bitOf a 4 ||| bitOf b 3 ||| bitOf c 2 ||| bitOf d 1
      ||| bitOf e 0).toNat = 32 * tag.val + (if a then 16 else 0) + (if b then 8 else 0) +
        (if c then 4 else 0) + (if d then 2 else 0) + (if e then 1 else 0) := by
  decide

theorem values_toList (v : Vector Int 8) (i : Fin 8) (h : i.val < v.toList.length) :
    v.toList[i.val] = tget v i := by
  simp [tget]

/-- The values of a FEED stand behind its first three bytes. -/
theorem feed_value (f : Feed) (i : Fin 8) :
    f.bytes[3 + 2 * i.val]? =
        some ((BitVec.ofInt 16 (tget f.block.values i)).extractLsb' 8 8) ∧
      f.bytes[4 + 2 * i.val]? =
        some ((BitVec.ofInt 16 (tget f.block.values i)).extractLsb' 0 8) := by
  have hlen : f.block.values.toList.length = 8 := Vector.length_toList
  have hi : i.val < f.block.values.toList.length := hlen.symm ▸ i.isLt
  obtain ⟨h0, h1⟩ := intBytes_getElem _ i.val hi
  have hbound : 2 * i.val + 1 < (f.block.values.toList.flatMap intBytes).length := by
    rw [length_intBytes]
    omega
  have hplace : ∀ n, n < (f.block.values.toList.flatMap intBytes).length →
      f.bytes[3 + n]? = (f.block.values.toList.flatMap intBytes)[n]? := fun n hn => by
    rw [Feed.bytes, withCheck, List.getElem?_append_left
      (by rw [List.length_append]; exact Nat.add_lt_add_left hn 3), Nat.add_comm]
    rfl
  rw [values_toList] at h0 h1
  exact ⟨(hplace _ (by omega)).trans h0, by
    rw [show 4 + 2 * i.val = 3 + (2 * i.val + 1) by omega]
    exact (hplace _ hbound).trans h1⟩

theorem length_feedBytes (f : Feed) : f.bytes.length = 20 := by
  have hlen : f.block.values.toList.length = 8 := Vector.length_toList
  rw [Feed.bytes, withCheck, List.length_append, List.length_append, length_intBytes, hlen]
  rfl

/-! ### Responses (R164, R176) -/

theorem statusOf_code (st : Status) :
    [Status.ok, .busy, .badArgument, .swapPending, .notPending, .poolFull, .badList, .notLent,
      .alreadyLent, .inUse, .profileBad, .noSuchRecord,
      .unknownCommand][(byteOf st.code).toNat]? = some st := by
  cases st <;> rfl

theorem responseBytes_eq (r : Response) : r.bytes = [byteOf r.status.code,
    BitVec.ofNat 8 (r.body.bytes.length / 256), BitVec.ofNat 8 r.body.bytes.length] ++
      r.body.bytes := by
  rw [Response.bytes, countBytes_eq]
  rfl

theorem twoBytes_toNat {n : Nat} (h : n < 65536) :
    256 * (BitVec.ofNat 8 (n / 256)).toNat + (BitVec.ofNat 8 n).toNat = n := by
  rw [BitVec.toNat_ofNat, BitVec.toNat_ofNat]
  omega

theorem clockOut_of_some {t : Transaction} {i : Nat} {b : Byte} (h : t.out.bytes[i]? = some b) :
    t.clockOut i = b := by
  rw [Transaction.clockOut, List.getD_eq_getElem?_getD, h, Option.getD_some]

theorem clockOut_beyond {t : Transaction} {i : Nat} (h : t.out.bytes.length ≤ i) :
    t.clockOut i = 0 := by
  rw [Transaction.clockOut, List.getD_eq_getElem?_getD, List.getElem?_eq_none h, Option.getD_none]

theorem bitOut_eq (t : Transaction) (i : Nat) {j : Nat} (hj : j < 8) :
    t.bitOut (8 * i + j) = (t.clockOut i).getLsbD (7 - j) := by
  rw [Transaction.bitOut, Nat.mul_add_div (by decide), Nat.div_eq_of_lt hj, Nat.add_zero,
    Nat.mul_add_mod, Nat.mod_eq_of_lt hj, BitVec.getMsbD, decide_eq_true hj, Bool.true_and,
    Nat.sub_right_comm]

theorem flagBytes_eq : ∀ bits : BitVec 12, (Body.flags bits).bytes =
    [(bits.extractLsb' 8 4).setWidth 8, bits.extractLsb' 0 8] := fun bits => by
  rw [Body.bytes, halfBytes, List.cons.injEq, List.cons.injEq]
  refine ⟨BitVec.eq_of_toNat_eq ?_, BitVec.eq_of_toNat_eq ?_, rfl⟩
  · have := bits.isLt
    simp only [BitVec.extractLsb'_toNat, BitVec.toNat_setWidth, Nat.shiftRight_eq_div_pow]
    omega
  · have := bits.isLt
    simp only [BitVec.extractLsb'_toNat, BitVec.toNat_setWidth, Nat.shiftRight_eq_div_pow]
    omega

theorem bankBytes_eq (name : BankName) :
    choiceByte name.code = (if name = .a then [0] else [1] : List Byte) := by
  cases name <;> rfl

/-- Settles O17, message by message. -/
theorem sentMessagesCarryTheirFieldsAndCheck : Obligations.SentMessagesCarryTheirFieldsAndCheck := by
  unfold Obligations.SentMessagesCarryTheirFieldsAndCheck
  refine ⟨fun b => ⟨rfl, sum_withCheck _,
      checkByte ([0x3C] ++ halfBytes b.frameNumber ++ [byteOf b.bank.code]), ?_, fun i _ j hj => lineBits_getElem _ i hj⟩,
    fun f => ⟨length_feedBytes f, sum_withCheck _, fun i _ j hj => lineBits_getElem _ i hj,
      ⟨_, rfl, replyOf_code f.reply⟩, fun h => ?_, fun h => ?_, fun i h1 h2 => ?_⟩,
    fun r => ⟨_, _, _, responseBytes_eq r, twoBytes_toNat, statusOf_code r.status⟩,
    fun t i => ⟨fun b => clockOut_of_some, clockOut_beyond, fun j hj => bitOut_eq t i hj⟩,
    rfl, flagBytes_eq, fun _ => rfl, fun name length clipped pool => ?_, fun name pool => ?_,
    fun lowered awaiting => ?_, rfl, rfl, rfl, fun part l t cause => ?_⟩
  · rw [← bankByte]
    rfl
  · exact congrArg some (flagByte_toNat ⟨f.tag, h⟩ f.block.absent f.block.parked
      f.block.suppressed f.block.clipped f.block.partialFlag)
  · exact congrArg some ((BitVec.toNat_ofNat ..).trans (Nat.mod_eq_of_lt (by omega)))
  · obtain ⟨hhi, hlo⟩ := feed_value f i
    refine ⟨_, _, hhi, hlo, ?_⟩
    have happend := extract_append_extract (a := 8) (b := 8) (BitVec.ofInt 16 (tget f.block.values i))
    exact (congrArg BitVec.toInt happend).trans (toInt_ofInt_of_bounds h1 h2)
  · rw [Body.bytes, bankBytes_eq, countBytes_eq, countBytes_eq, countBytes_eq]
  · rw [Body.bytes, bankBytes_eq, countBytes_eq]
  · rw [Body.bytes, countBytes_eq, countBytes_eq]
  · refine ⟨List.replicate Config.partCodeBytesBeforeLast 0,
      fun z hz => List.eq_of_mem_replicate hz, ?_⟩
    have htwo : countBytes = fun n => [BitVec.ofNat 8 (n / 256), BitVec.ofNat 8 n] :=
      funext countBytes_eq
    rw [Body.bytes, htwo, partCodeBytes]
    cases cause <;> rfl

end Sys2Proof.Machine
end

section
/-! PROOF. Records' time events, and the messages WITHDRAW, CLOSE and those not handed on
(spec/01, spec/08). -/

namespace Sys2Proof.Machine

open Sys2Proof

section

variable {s t : State} {r : RecordNo} {v w : SourceRecord} {slot : Slot} {tag : Tag}

/-! ### Changes of one record -/

/-- A record replaced is the only change. -/
theorem recordOnly_setRecord (r : RecordNo) (v : SourceRecord) (s : State) :
    RecordOnly r v s (setRecord r v s) :=
  ⟨getRecord_setRecord_self r v s, fun q hq => by rw [getRecord_setRecord, if_neg hq], rfl⟩

/-- The last of two replacements of a record stands. -/
theorem setRecord_setRecord (r : RecordNo) (v w : SourceRecord) (s : State) :
    setRecord r w (setRecord r v s) = setRecord r w s := by
  rw [setRecord, setRecord, setRecord, tset_tset]

/-- A record changed within its slot and profile is retired as it would have been before. -/
theorem retire_setRecord (hslot : v.slot = (getRecord r s).slot)
    (hprofile : v.profile = (getRecord r s).profile) :
    retire r (setRecord r v s) = retire r s := by
  rw [retire, getRecord_setRecord_self, hslot, hprofile, setRecord_setRecord, retire]

/-- A changed record is settled by the state that its new fields give it. -/
theorem settleRecord_setRecord_some {st : RecordState} (h : v.stateAt s.now = some st) :
    settleRecord r (setRecord r v s) = setRecord r { v with state := st } s := by
  have hst : (getRecord r (setRecord r v s)).stateAt (setRecord r v s).now = some st := by
    rw [getRecord_setRecord_self]
    exact h
  rw [settleRecord, hst]
  show setRecord r { getRecord r (setRecord r v s) with state := st } (setRecord r v s) = _
  rw [getRecord_setRecord_self, setRecord_setRecord]

/-- A changed record whose time is past is retired. -/
theorem settleRecord_setRecord_none (h : v.stateAt s.now = none)
    (hslot : v.slot = (getRecord r s).slot) (hprofile : v.profile = (getRecord r s).profile) :
    settleRecord r (setRecord r v s) = retire r s := by
  have hst : (getRecord r (setRecord r v s)).stateAt (setRecord r v s).now = none := by
    rw [getRecord_setRecord_self]
    exact h
  rw [settleRecord, hst]
  exact retire_setRecord hslot hprofile

/-! ### The end point (R2) -/

theorem endPoint_of_uncut (h : v.cut = none) : v.endPoint = v.fullEnd := by
  rw [SourceRecord.endPoint, h]

theorem endPoint_of_cut {c : Time} (h : v.cut = some c) :
    v.endPoint = if Before c v.fullEnd then c else v.fullEnd := by
  rw [SourceRecord.endPoint, h]

theorem fullEnd_toNat (v : SourceRecord) :
    v.fullEnd.toNat = (v.start.toNat + v.length) % 2 ^ 32 := by
  rw [SourceRecord.fullEnd, BitVec.toNat_add, periods, BitVec.toNat_ofNat, Nat.add_mod_mod]

/-! ### The state that the present time gives (R4) -/

theorem stateAt_pending {now : Time} (h : After v.start now) : v.stateAt now = some .pending :=
  if_pos h

theorem stateAt_of_started {now : Time} (h : ¬ After v.start now) : v.stateAt now =
    if After v.endPoint now then some .running
    else if After v.tailEnd now then some .tail else none :=
  if_neg h

/-- A record with no time event due stands in the state that the present time gives it. -/
theorem stateAt_of_notDue (hlive : isLive v = true) {now : Time} (h : recordDue v now = false) :
    v.stateAt now = some v.state := by
  rw [recordDue, hlive, Bool.true_and] at h
  exact not_not.mp (of_decide_eq_false h)

theorem not_after_start_of_running {now : Time} (hst : v.state = .running)
    (h : v.stateAt now = some v.state) : ¬ After v.start now := fun hs => by
  rw [stateAt_pending hs, hst] at h
  cases h

/-! ### Records by slot and tag (R6) -/

theorem findTag_eq_none : findTag slot tag s = none ↔ ∀ r, ¬ Names r slot tag s := by
  rw [findTag, firstWhere_none]
  refine forall_congr' fun r => ?_
  show (isLive (getRecord r s) && decide ((getRecord r s).slot = slot) &&
    decide ((getRecord r s).tag = tag)) = false ↔ _
  rw [← Bool.not_eq_true, Bool.and_eq_true, Bool.and_eq_true, decide_eq_true_eq,
    decide_eq_true_eq, and_assoc]

/-- Where a slot's tags are distinct, the record of a tag is the one found. -/
theorem findTag_of_names (hs : SourceTableLaw s) (h : Names r slot tag s) :
    findTag slot tag s = some r := by
  cases hf : findTag slot tag s with
  | none => exact absurd h (findTag_eq_none.mp hf r)
  | some q =>
    obtain ⟨hlive, hslot, htag⟩ := findTag_some hf
    obtain ⟨hr, hrs, hrt⟩ := h
    rw [hs.2 q r hlive hr (hslot.trans hrs.symm) (htag.trans hrt.symm)]

/-! ### Messages that are received -/

theorem message_of_listens (f : State → State) (h : Listens slot s) :
    message slot f s = .next (f s) := by
  rw [message, inTurn_of_inTurn _ _ _ h.1, inWindow_of_listening _ _ h.2.2 h.2.1]

theorem listensFor_of_listens (m : NoticeFields) (h : Listens slot s) : ListensFor slot m s := by
  obtain ⟨⟨hrun, ⟨hb, he, hd⟩, hplace⟩, hu⟩ := h
  exact ⟨hrun, ⟨hb, he⟩, .inl hd, hplace, hu⟩

/-- An answer of the Source Table to a PRESENT slot. -/
theorem handToTable_of_present {f : State → Reply × State} (hp : (getLink slot s).effective = .present)
    {reply : Reply} (h : f s = (reply, t)) :
    handToTable slot tag f s = setAnswer slot ⟨true, reply, tag.val⟩ t := by
  rw [handToTable, answerIfPresent_of_present _ _ hp, h]

theorem handToTable_of_absent (f : State → Reply × State)
    (hp : (getLink slot s).effective = .absent) :
    handToTable slot tag f s = setAnswer slot ⟨true, .notPresent, tag.val⟩ s := by
  rw [handToTable, answerIfPresent_of_absent _ _ hp]

/-! ### WITHDRAW (R16) -/

theorem exec_withdraw_of_answer {reply : Reply} (hl : Listens slot s)
    (hp : (getLink slot s).effective = .present) (h : withdrawPresent slot tag s = (reply, t)) :
    exec (.withdraw slot tag) s = .next (setAnswer slot ⟨true, reply, tag.val⟩ t) :=
  (message_of_listens _ hl).trans (congrArg _ (handToTable_of_present hp h))

/-- A RUNNING record that is cut at now is a TAIL record. -/
theorem stateAt_cut_now (hs : ¬ After v.start s.now) (h : After v.fullEnd s.now) :
    ({ v with cut := some s.now } : SourceRecord).stateAt s.now = some .tail := by
  have hend : ({ v with cut := some s.now } : SourceRecord).endPoint = s.now :=
    (endPoint_of_cut rfl).trans (if_pos h)
  have hself : ¬ After s.now s.now := by simp [After]
  have htail : After (s.now + periods 15) s.now := by
    rw [After, add_sub_cancel_left]
    decide
  refine (stateAt_of_started (v := { v with cut := some s.now }) hs).trans ?_
  rw [SourceRecord.tailEnd, hend, if_neg hself, if_pos htail]

/-! ### CLOSE (R17) -/

theorem exec_close_of_answer {stamp : Half} {reply : Reply} (hl : Listens slot s)
    (hp : (getLink slot s).effective = .present)
    (h : closePresent slot tag stamp s = (reply, t)) :
    exec (.close slot tag stamp) s = .next (setAnswer slot ⟨true, reply, tag.val⟩ t) :=
  (message_of_listens _ hl).trans (congrArg _ (handToTable_of_present hp h))

/-! ### Messages that are not handed on (R8, R153, R154, R155) -/

/-- A message that the window does not listen for does nothing. -/
theorem inWindow_of_passed (f : State → State)
    (hu : (getLink slot s).window ≠ .upstream none ∨
      ∃ x : Slot, position x = position slot ∧ (getLink x s).window.isUpstream = false) :
    inWindow slot f s = s := by
  refine inWindow_of_unheard slot f (hu.symm.imp_left ?_)
  rintro ⟨x, hx, hw⟩
  rw [← Bool.not_eq_true, phaseOpen_iff]
  exact fun hall => absurd (hall x hx) (by rw [hw]; exact Bool.false_ne_true)

end

/-- Settles O26: each event is the step of its own, and E is by the cut. -/
theorem recordsFollowTheirTimeEvents : Obligations.RecordsFollowTheirTimeEvents := by
  unfold Obligations.RecordsFollowTheirTimeEvents
  refine ⟨fun r s hs => ⟨fun hst h => ⟨_, running_of_running _ hs, ?_⟩,
    fun hst h => ⟨_, running_of_running _ hs, ?_⟩, fun hst h => ⟨_, running_of_running _ hs, ?_⟩,
    fun h => ?_, fun h => ?_, fun h => ?_⟩, fun v => ⟨fun h => ?_, fun c h => ⟨fun hc => ?_,
    fun hc => ?_⟩⟩⟩
  · rw [recordStart, if_pos ⟨hst, h⟩]
    exact recordOnly_setRecord _ _ _
  · rw [recordEnd, if_pos ⟨hst, h⟩]
    exact recordOnly_setRecord _ _ _
  · rw [recordRetirement, if_pos ⟨hst, h⟩]
    exact retire_spec _ _
  · refine (running_of_running _ hs).trans (congrArg _ (if_neg fun hand => ?_))
    exact h.elim (fun hn => hn hand.1) fun hn => hn hand.2
  · refine (running_of_running _ hs).trans (congrArg _ (if_neg fun hand => ?_))
    exact h.elim (fun hn => hn hand.1) fun hn => hn hand.2
  · refine (running_of_running _ hs).trans (congrArg _ (if_neg fun hand => ?_))
    exact h.elim (fun hn => hn hand.1) fun hn => hn hand.2
  · rw [endPoint_of_uncut h, fullEnd_toNat]
  · exact (endPoint_of_cut h).trans (if_pos hc)
  · exact (endPoint_of_cut h).trans (if_neg (not_lt.mpr hc))

/-- Settles O30, by the state of the record found. -/
theorem withdrawsRetireOrCut : Obligations.WithdrawsRetireOrCut := by
  unfold Obligations.WithdrawsRetireOrCut
  intro slot tag s hl hp hlaw
  refine ⟨fun hnone => exec_withdraw_of_answer hl hp ?_, fun r hr => ⟨fun hst => ?_, fun hst hend => ?_,
    fun hst => exec_withdraw_of_answer hl hp ?_⟩⟩
  · rw [withdrawPresent, findTag_eq_none.mpr hnone]
  · refine ⟨_, retire_spec r s, exec_withdraw_of_answer hl hp ?_⟩
    simp only [withdrawPresent, findTag_of_names hlaw hr, hst]
  · have hstart := not_after_start_of_running hst
      (stateAt_of_notDue hr.1 (hl.1.2.1.2.1 r))
    refine ⟨_, recordOnly_setRecord r _ s, exec_withdraw_of_answer hl hp ?_⟩
    simp only [withdrawPresent, findTag_of_names hlaw hr, hst]
    exact congrArg _ (settleRecord_setRecord_some (stateAt_cut_now hstart hend))
  · simp only [withdrawPresent, findTag_of_names hlaw hr, hst]

/-- Settles O31, by the state of the record found and the state that its cut gives it. -/
theorem closesCutRunningRecords : Obligations.ClosesCutRunningRecords := by
  unfold Obligations.ClosesCutRunningRecords
  intro slot tag stamp s hl hp hlaw answers
  refine ⟨fun hnone => exec_close_of_answer hl hp ?_, fun r hr => ⟨fun hst => ?_, fun hst => ?_,
    fun hst => ?_⟩⟩
  · rw [closePresent, findTag_eq_none.mpr hnone]
  · refine exec_close_of_answer hl hp ?_
    simp only [closePresent, findTag_of_names hlaw hr, hst]
  · refine exec_close_of_answer hl hp ?_
    simp only [closePresent, findTag_of_names hlaw hr, hst]
  · intro lesser v
    have hclose : closePresent slot tag stamp s = (.taken, settleRecord r (setRecord r v s)) := by
      rw [closePresent, findTag_of_names hlaw hr]
      dsimp only
      split
      · next h => rw [hst] at h; cases h
      · rfl
      · next h => exact absurd hst h
    refine ⟨fun hnone => ⟨_, retire_spec r s, exec_close_of_answer hl hp ?_⟩,
      fun st hsome => ⟨_, recordOnly_setRecord r _ s, exec_close_of_answer hl hp ?_⟩⟩
    · rw [hclose, settleRecord_setRecord_none hnone rfl rfl]
    · rw [hclose, settleRecord_setRecord_some hsome]

/-- Settles O32: a message not handed on sets the window's answer alone. -/
theorem messagesNotHandedOnChangeOnlyTheReply : Obligations.MessagesNotHandedOnChangeOnlyTheReply := by
  unfold Obligations.MessagesNotHandedOnChangeOnlyTheReply
  refine ⟨⟨fun slot s hl => ⟨message_of_listens _ hl, fun m ⟨l, hm, hout⟩ => ?_, fun m h1 h2 => ?_⟩,
    fun slot s ht hu => ?_⟩, fun slot s hl hp => ⟨fun m hm => ?_, fun m hm => ?_, fun tag => ?_,
    fun tag stamp => ?_⟩⟩
  · have hbad : m.wellFormed = false := by
      rw [NoticeFields.wellFormed, hm, Bool.and_eq_false_iff, decide_eq_false_iff_not,
        decide_eq_false_iff_not]
      omega
    refine (execNotice_of_listensFor slot m (listensFor_of_listens m hl)).trans ?_
    rw [takeNotice, if_neg (Bool.eq_false_iff.mp hbad), discardMessage]
  · have hbad : m.wellFormed = false := by rw [AmendFields.wellFormed, h1, h2]; rfl
    refine (message_of_listens _ hl).trans ?_
    rw [if_neg (Bool.eq_false_iff.mp hbad), discardMessage]
  · have hnone : ∀ f, message slot f s = .next s := fun f => by
      rw [message, inTurn_of_inTurn _ _ _ ht, inWindow_of_passed f hu]
    refine ⟨hnone _, fun m => ?_, fun m => hnone _, fun tag => hnone _, fun tag stamp => hnone _,
      fun m => hnone _⟩
    obtain ⟨hrun, ⟨hb, he, hd⟩, hplace⟩ := id ht
    show execNotice slot m s = _
    rw [execNotice, running_of_running _ hrun, takeDueFor_of_none slot m ⟨⟨hb, he⟩, .inl hd⟩, inPlace_of_inPlace _ _ _ hplace,
      inWindow_of_passed _ hu]
  · refine (execNotice_of_listensFor slot m (listensFor_of_listens m hl)).trans ?_
    rw [takeNotice, if_pos hm, handToTable_of_absent _ hp]
  · refine (message_of_listens _ hl).trans ?_
    rw [if_pos hm, handToTable_of_absent _ hp]
  · refine (message_of_listens _ hl).trans ?_
    rw [handToTable_of_absent _ hp]
  · refine (message_of_listens _ hl).trans ?_
    rw [handToTable_of_absent _ hp]

end Sys2Proof.Machine
end

section
/-! PROOF. AMEND (spec/01 section 1.5): the checks of its new start, and the record it makes. -/

namespace Sys2Proof.Machine

open Sys2Proof

section

variable {s t : State} {r : RecordNo} {v w : SourceRecord} {slot : Slot} {tag : Tag}

/-! ### Times near now -/

/-- The first sample of a frame lies eight samples after that of the frame before. -/
theorem firstSample_add_two (f : Frame) : firstSample f + periods 16 = firstSample (f + 2) := by
  apply BitVec.eq_of_toNat_eq
  have hf := f.isLt
  have htwo : (2 : Frame).toNat = 2 := rfl
  simp only [firstSample, periods, BitVec.toNat_add, BitVec.toNat_shiftLeft, BitVec.toNat_setWidth,
    BitVec.toNat_ofNat, Nat.shiftLeft_eq, htwo]
  omega

/-- The lead test: the start lies before the first sample of frame f + 2 (R10). -/
theorem insideLead_iff (start now : Time) :
    InsideLead start now ↔ Before start (firstSample (frameOf now + 2)) := by
  rw [InsideLead, firstSample_add_two]

/-- The reply of a message that is taken, and the flag, by the late flag of its record. -/
theorem leadReply_eq (start now : Time) :
    leadReply start now = if decide (InsideLead start now) then .takenLate else .taken := by
  rw [leadReply]
  exact if_congr decide_eq_true_iff.symm rfl rfl

theorem latchLate_eq (start : Time) (s : State) : latchLate start s =
    if decide (InsideLead start s.now) then latch .noticeLate s else s := by
  rw [latchLate]
  exact if_congr decide_eq_true_iff.symm rfl rfl

/-- A time that a stamp and at most 256 samples give lies after now if it is not at or before it. -/
theorem after_of_not_atOrBefore {start now : Time} {n : Nat} (h1 : -32768 ≤ (start - now).toInt)
    (h2 : (start - now).toInt ≤ 32767) (hn : n ≤ 256)
    (h : ¬ AtOrBefore (start + periods n + 15) now) : After (start + periods n + periods 15) now := by
  have hp : (periods n).toNat = n :=
    (BitVec.toNat_ofNat ..).trans (Nat.mod_eq_of_lt (by omega))
  have hd : start + periods n + periods 15 - now = (start - now) + (periods n + periods 15) := by
    ring
  have hadd : (periods n + periods 15).toInt = n + 15 := by
    rw [BitVec.toInt_eq_toNat_of_lt]
    · rw [BitVec.toNat_add, hp]
      show (((n + 15) % 2 ^ 32 : Nat) : Int) = _
      omega
    · rw [BitVec.toNat_add, hp]
      show 2 * ((n + 15) % 2 ^ 32) < _
      omega
  have hsum : (start + periods n + periods 15 - now).toInt = (start - now).toInt + (n + 15) := by
    rw [hd, BitVec.toInt_add, hadd]
    exact Int.bmod_eq_of_le (by omega) (by omega)
  have hneg : (now - (start + periods n + periods 15)).toInt =
      -((start - now).toInt + (n + 15)) := by
    rw [← neg_sub, BitVec.toInt_neg, hsum]
    exact Int.bmod_eq_of_le (by omega) (by omega)
  have hnot : ¬ 0 ≤ (now - (start + periods n + periods 15)).toInt := h
  rw [After, hsum]
  omega

theorem readStamp_near (now : Time) (stamp : Half) :
    -32768 ≤ (readStamp now stamp - now).toInt ∧ (readStamp now stamp - now).toInt ≤ 32767 := by
  rw [toInt_readStamp_sub_now]
  exact ⟨BitVec.le_toInt _, BitVec.toInt_le⟩

/-! ### The record that an AMEND makes -/

/-- A record without a cut, whose tail has not ended, by its start and its full end. -/
theorem stateAt_uncut (hcut : v.cut = none) {now : Time}
    (h : After v.start now ∨ After (v.start + periods v.length + periods 15) now) :
    v.stateAt now = some (if After v.start now then .pending
      else if After (v.start + periods v.length) now then .running else .tail) := by
  by_cases hs : After v.start now
  · rw [stateAt_pending hs, if_pos hs]
  · have htail : After (v.fullEnd + periods 15) now := h.resolve_left hs
    have hend : v.endPoint = v.start + periods v.length := endPoint_of_uncut hcut
    rw [stateAt_of_started hs, if_neg hs, SourceRecord.tailEnd, hend]
    by_cases he : After (v.start + periods v.length) now
    · rw [if_pos he, if_pos he]
    · rw [if_neg he, if_neg he]
      exact if_pos htail

theorem after_start_of_pending {now : Time} (hst : v.state = .pending)
    (h : v.stateAt now = some v.state) : After v.start now := by
  by_contra hs
  rw [stateAt_of_started hs, hst] at h
  split at h
  · cases h
  · split at h <;> cases h

/-- The checks of an AMEND, of its new start alone (R15). -/
theorem amendRefusal_eq (m : AmendFields) (s : State) (v : SourceRecord) :
    amendRefusal m s v =
      if m.start ≠ none ∧ After (amendRecord m s v).start (s.now + 4096) then some .tooFar
      else if m.start ≠ none ∧
          AtOrBefore ((amendRecord m s v).start + periods v.length + 15) s.now then some .stale
      else none := by
  unfold amendRefusal amendRecord
  cases m.start with
  | none => simp
  | some st =>
    simp only [ne_eq, reduceCtorEq, not_false_eq_true, true_and]
    rfl

/-- An AMEND that passes its checks leaves a record whose tail has not ended. -/
theorem amendRecord_running (m : AmendFields) (hstart : After v.start s.now)
    (hlen : v.length ≤ 256) (h : ¬ (m.start ≠ none ∧
      AtOrBefore ((amendRecord m s v).start + periods v.length + 15) s.now)) :
    After (amendRecord m s v).start s.now ∨
      After ((amendRecord m s v).start + periods v.length + periods 15) s.now := by
  unfold amendRecord at h ⊢
  cases hm : m.start with
  | none => exact .inl hstart
  | some st =>
    rw [hm] at h
    obtain ⟨h1, h2⟩ := readStamp_near s.now st
    exact .inr (after_of_not_atOrBefore h1 h2 hlen fun hb => h ⟨nofun, hb⟩)

theorem amendPresent_of_unmatched {m : AmendFields} (h : findTag slot m.tag s = none) :
    amendPresent slot m s = (.unknownTag, s) := by
  rw [amendPresent, h]

theorem amendPresent_of_started {m : AmendFields} (h : findTag slot m.tag s = some r)
    (hst : (getRecord r s).state ≠ .pending) : amendPresent slot m s = (.tooLate, s) := by
  rw [amendPresent, h]
  dsimp only
  split
  · next hp => exact absurd hp hst
  · rfl

theorem amendPresent_of_pending {m : AmendFields} (h : findTag slot m.tag s = some r)
    (hst : (getRecord r s).state = .pending) : amendPresent slot m s =
      match amendRefusal m s (getRecord r s) with
      | some reply => (reply, s)
      | none => amendInto r m s := by
  rw [amendPresent, h]
  dsimp only
  split
  · rfl
  · next hp => exact absurd hst hp

theorem exec_amend_of_answer {m : AmendFields} {reply : Reply} (hl : Listens slot s)
    (hm : m.wellFormed = true) (hp : (getLink slot s).effective = .present)
    (h : amendPresent slot m s = (reply, t)) :
    exec (.amend slot m) s = .next (setAnswer slot ⟨true, reply, m.tag.val⟩ t) := by
  refine (message_of_listens _ hl).trans ?_
  rw [if_pos hm, handToTable_of_present hp h]

/-- An applied AMEND sets the record and the state that its fields give it, and answers by the lead
test. -/
theorem amendInto_eq (m : AmendFields) {st : RecordState}
    (h : (amendRecord m s (getRecord r s)).stateAt s.now = some st) :
    amendInto r m s = (leadReply (amendRecord m s (getRecord r s)).start s.now,
      latchLate (amendRecord m s (getRecord r s)).start
        (setRecord r { amendRecord m s (getRecord r s) with state := st } s)) := by
  rw [amendInto, settleRecord_setRecord_some h]

end

/-- Settles O29: by the record found, its state and the checks of the new start. -/
theorem amendsApplyToPendingRecordsWhole : Obligations.AmendsApplyToPendingRecordsWhole := by
  unfold Obligations.AmendsApplyToPendingRecordsWhole
  intro slot m s hl hm hp hlaw answers
  refine ⟨fun hnone => exec_amend_of_answer hl hm hp
      (amendPresent_of_unmatched (findTag_eq_none.mpr hnone)),
    fun r hr => ⟨fun hst => exec_amend_of_answer hl hm hp
      (amendPresent_of_started (findTag_of_names hlaw hr) hst), fun hst hcut hlen => ?_⟩⟩
  have hfind := findTag_of_names hlaw hr
  have hafter := after_start_of_pending hst (stateAt_of_notDue hr.1 (hl.1.2.1.2.1 r))
  have hpending := amendPresent_of_pending (m := m) hfind hst
  rw [amendRefusal_eq] at hpending
  intro start late
  have hstart : start = (amendRecord m s (getRecord r s)).start := rfl
  clear_value start
  subst hstart
  split
  · next hfar =>
    rw [if_pos hfar] at hpending
    exact exec_amend_of_answer hl hm hp hpending
  · next hfar =>
    rw [if_neg hfar] at hpending
    split
    · next hstale =>
      rw [if_pos hstale] at hpending
      exact exec_amend_of_answer hl hm hp hpending
    · next hstale =>
      rw [if_neg hstale] at hpending
      have hstate := stateAt_uncut (v := amendRecord m s (getRecord r s)) hcut
        (amendRecord_running m hafter hlen hstale)
      have hlate : late = decide (InsideLead (amendRecord m s (getRecord r s)).start s.now) :=
        (decide_eq_decide.mpr (insideLead_iff _ _)).symm
      clear_value late
      subst hlate
      refine ⟨_, recordOnly_setRecord r _ s, ?_⟩
      have hexec := exec_amend_of_answer hl hm hp (hpending.trans (amendInto_eq m hstate))
      rw [leadReply_eq, latchLate_eq] at hexec
      exact hexec

end Sys2Proof.Machine
end

section
/-! PROOF. NOTICE (spec/01 section 1.4): the checks in their order, and the record that one which
passes them fills. -/

namespace Sys2Proof.Machine

open Sys2Proof

section

variable {s t : State} {r : RecordNo} {slot : Slot} {m : NoticeFields} {id : ProfileId}

/-! ### Resident profiles (R33) -/

/-- A search answers the lowest number whose entry satisfies the test. -/
theorem firstWhere_eq_some {α : Type} {n : Nat} {l : Vector α n} {p : α → Bool} {i : Fin n}
    (hi : p (tget l i) = true) (hbelow : ∀ j, j < i → p (tget l j) = false) :
    firstWhere l p = some i := by
  cases hf : firstWhere l p with
  | none => exact absurd ((firstWhere_none l p).mp hf i) (by rw [hi]; exact Bool.true_eq_false.mp)
  | some j =>
    have hj := firstWhere_holds hf
    rcases lt_trichotomy j i with hlt | rfl | hlt
    · rw [hbelow j hlt] at hj
      cases hj
    · rfl
    · have := firstWhere_lowest hf i hlt
      rw [hi] at this
      cases this

theorem residentSlot_eq_none (h : NotResident id s) : residentSlot id s = none := by
  rw [residentSlot, firstWhere_none]
  intro c
  cases hc : tget s.cache.slots c with
  | empty => rfl
  | filling i => rfl
  | filled i p n => exact decide_eq_false fun he => h c p n (he ▸ hc)

theorem residentSamples_eq_none (h : NotResident id s) : residentSamples id s = none := by
  rw [residentSamples, residentSlot_eq_none h, Option.map_none]

/-- A FILLED slot of a profile holds it with samples and a count. -/
theorem filled_of_filledWith {v : CacheSlot} (h : v.filledWith id = true) :
    ∃ p n, v = .filled id p n := by
  cases v with
  | empty => cases h
  | filling i => cases h
  | filled i p n =>
    have hi : i = id := of_decide_eq_true h
    exact ⟨p, n, by rw [hi]⟩

theorem residentSlot_of_resident {c : CacheNo} {p : List Int} (h : Resident id c p s) :
    residentSlot id s = some c := by
  obtain ⟨⟨n, hn⟩, hbelow⟩ := h
  have hfilled : (tget s.cache.slots c).filledWith id = true := by
    rw [hn]
    exact decide_eq_true rfl
  exact firstWhere_eq_some hfilled fun d hd => Bool.eq_false_iff.mpr fun hf => by
    obtain ⟨q, k, hq⟩ := filled_of_filledWith hf
    exact hbelow d q k hd hq

theorem residentSamples_of_resident {c : CacheNo} {p : List Int} (h : Resident id c p s) :
    residentSamples id s = some p := by
  obtain ⟨n, hn⟩ := h.1
  rw [residentSamples, residentSlot_of_resident h, Option.map_some, hn, CacheSlot.samples]

/-- The provisional length is the one of R9. -/
theorem noticeLength_of_provisional {length : Nat} (h : ProvisionalLength m s length) :
    noticeLength m s = length := by
  rcases h with hlimit | ⟨hlimit, ⟨hres, rfl⟩ | ⟨c, p, hres, rfl⟩⟩
  · rw [noticeLength, hlimit]
  · rw [noticeLength, hlimit, residentSamples_eq_none hres]
  · rw [noticeLength, hlimit, residentSamples_of_resident hres]

/-! ### The checks of R9 -/

theorem findTag_isSome : (findTag slot m.tag s).isSome = true ↔ ∃ r, Names r slot m.tag s := by
  rw [Option.isSome_iff_ne_none, ne_eq, findTag_eq_none, not_forall_not]

theorem noFreeRecord_iff : (firstWhere s.table.records fun v => !isLive v) = none ↔
    ∀ r : RecordNo, isLive (getRecord r s) := by
  rw [firstWhere_none]
  exact forall_congr' fun r => by rw [Bool.not_eq_false']; rfl

theorem queueFull_iff (s : State) : queueFull s = true ↔ 16 ≤ s.cache.queue.length :=
  decide_eq_true_iff

/-- No room in a full queue for a profile that is neither resident, in flight nor queued. -/
theorem busy_iff (hq : s.cache.queue.length ≤ 16) :
    (absentProfile id s && queueFull s) = true ↔ residentSlot id s = none ∧
      inFlight id s = false ∧ id ∉ s.cache.queue ∧ s.cache.queue.length = 16 := by
  simp only [absentProfile, queueFull_iff, queued, Bool.and_eq_true, Bool.not_eq_true',
    Option.isNone_iff_eq_none, decide_eq_false_iff_not, and_assoc]
  refine and_congr_right fun _ => and_congr_right fun _ => and_congr_right fun _ => ?_
  omega

/-- The checks of a NOTICE, as R9 lists them. -/
theorem noticeRefusal_eq {length : Nat} (hlen : ProvisionalLength m s length)
    (hlive : getLive slot s ≤ 3) (hq : s.cache.queue.length ≤ 16) :
    noticeRefusal slot m s =
      if ∃ r : RecordNo, Names r slot m.tag s then some .tagInUse
      else if getLive slot s = 3 then some .slotLimit
      else if unusable m.profile s then some .profileBad
      else if After (readStamp s.now m.start) (s.now + 4096) then some .tooFar
      else if AtOrBefore (readStamp s.now m.start + BitVec.ofNat 32 length + 15) s.now then some .stale
      else if ∀ r : RecordNo, isLive (getRecord r s) then some .full
      else if residentSlot m.profile s = none ∧ inFlight m.profile s = false ∧
        m.profile ∉ s.cache.queue ∧ s.cache.queue.length = 16 then some .busy
      else none := by
  rw [noticeRefusal, noticeLength_of_provisional hlen]
  refine if_congr findTag_isSome rfl (if_congr (by omega) rfl (if_congr Iff.rfl rfl
    (if_congr Iff.rfl rfl (if_congr Iff.rfl rfl (if_congr noFreeRecord_iff rfl
      (if_congr (busy_iff hq) rfl rfl))))))

/-- What holds of each answer of a check, and of those that follow it, however the check is
decided. -/
theorem ite_of_check {α : Type} {c : Prop} {inst inst' : Decidable c} {a : α} {o : Option α} {P : α → Prop}
    {Q : Prop} (h : ∀ x, @ite _ c inst (some a) o = some x → P x)
    (hnext : (∀ x, o = some x → P x) → Q) : @ite Prop c inst' (P a) Q := by
  by_cases hc : c
  · rw [if_pos hc] at h ⊢
    exact h a rfl
  · rw [if_neg hc] at h ⊢
    exact hnext h

set_option maxRecDepth 2000 in
/-- What holds of the reply of the first check that fails. -/
theorem of_noticeRefusal {length : Nat} (hlen : ProvisionalLength m s length)
    (hlive : getLive slot s ≤ 3) (hq : s.cache.queue.length ≤ 16) (P : Reply → Prop)
    (h : ∀ reply, noticeRefusal slot m s = some reply → P reply) :
    if ∃ r : RecordNo, Names r slot m.tag s then P .tagInUse
    else if getLive slot s = 3 then P .slotLimit
    else if unusable m.profile s then P .profileBad
    else if After (readStamp s.now m.start) (s.now + 4096) then P .tooFar
    else if AtOrBefore (readStamp s.now m.start + BitVec.ofNat 32 length + 15) s.now then P .stale
    else if ∀ r : RecordNo, isLive (getRecord r s) then P .full
    else if residentSlot m.profile s = none ∧ inFlight m.profile s = false ∧
      m.profile ∉ s.cache.queue ∧ s.cache.queue.length = 16 then P .busy
    else True := by
  rw [noticeRefusal_eq hlen hlive hq] at h
  exact ite_of_check h fun h => ite_of_check h fun h => ite_of_check h fun h =>
    ite_of_check h fun h => ite_of_check h fun h => ite_of_check h fun h =>
    ite_of_check h fun _ => trivial

theorem exec_notice_of_answer {reply : Reply} (hl : ListensFor slot m s) (hm : m.wellFormed = true)
    (hp : (getLink slot s).effective = .present) (h : noticePresent slot m s = (reply, t)) :
    exec (.notice slot m) s = .next (setAnswer slot ⟨true, reply, m.tag.val⟩ t) := by
  refine (execNotice_of_listensFor slot m hl).trans ?_
  rw [takeNotice, if_pos hm, handToTable_of_present hp h]

theorem noticePresent_of_refused {reply : Reply} (h : noticeRefusal slot m s = some reply) :
    noticePresent slot m s = (reply, latch .noticeRefused s) := by
  rw [noticePresent, h]

end

set_option maxRecDepth 2000 in
/-- Settles O27, check by check. -/
theorem noticesAreRefusedInTheOrderOfTheChecks :
    Obligations.NoticesAreRefusedInTheOrderOfTheChecks := by
  unfold Obligations.NoticesAreRefusedInTheOrderOfTheChecks
  intro slot m s length hl hm hlen hp hlive hq start refused
  exact of_noticeRefusal hlen hlive hq refused fun reply h =>
    exec_notice_of_answer hl hm hp (noticePresent_of_refused h)

section

variable {s t u : State} {r : RecordNo} {slot : Slot} {m : NoticeFields} {id : ProfileId}

/-! ### What a NOTICE that passes does (R10 to R12) -/

/-- What a taken NOTICE does to the cache: counts, queue and LRU order (R11). -/
theorem noticeProfile_frame (id : ProfileId) (s : State) : noticeProfile id s = { s with
    cache := { s.cache with
      slots := s.cache.slots.map (CacheSlot.mapCount id (· + 1))
      queue := if absentProfile id s then s.cache.queue ++ [id] else s.cache.queue
      lru := match residentSlot id s with
        | some c => s.cache.lru.filter (fun d => decide (d ≠ c)) ++ [c]
        | none => s.cache.lru } } := by
  rw [noticeProfile_eq, noticeCache]
  cases hr : residentSlot id s with
  | some c =>
    have habsent : absentProfile id s = false := by rw [absentProfile, hr]; rfl
    rw [habsent]
    rfl
  | none =>
    cases habsent : absentProfile id s <;> rfl

/-- A NOTICE whose record is still to run fills the record (R11). -/
theorem noticeInto_of_running {st : RecordState}
    (h : (noticeRecord slot m s).stateAt s.now = some st) :
    noticeInto r slot m s = modLive slot (· + 1)
      (setRecord r { noticeRecord slot m s with state := st } (noticeProfile m.profile s)) := by
  have hnow : (noticeProfile m.profile s).now = s.now := by rw [noticeProfile_frame]
  have hmove : ∀ v x, modLive slot (· + 1) (setRecord r v x) =
      setRecord r v (modLive slot (· + 1) x) := fun v x => rfl
  rw [noticeInto, hmove, settleRecord_setRecord_some (by rw [← h, ← hnow]; rfl), hmove]

/-- A NOTICE whose record's time is past leaves its record FREE, and every count as it was
(R12). -/
theorem noticeInto_of_past (h : (noticeRecord slot m s).stateAt s.now = none) :
    noticeInto r slot m s = { s with
      table := { s.table with records := tset s.table.records r freeRecord }
      cache := { (noticeProfile m.profile s).cache with slots := s.cache.slots } } := by
  have hprofile := noticeProfile_frame m.profile s
  have hst : (getRecord r (modLive slot (· + 1)
      (setRecord r (noticeRecord slot m s) (noticeProfile m.profile s)))).stateAt
        (modLive slot (· + 1)
          (setRecord r (noticeRecord slot m s) (noticeProfile m.profile s))).now = none := by
    rw [getRecord_modLive, getRecord_setRecord_self, modLive_now, setRecord_now, hprofile]
    exact h
  have hcount : ∀ c : CacheSlot, (c.mapCount m.profile (· + 1)).mapCount m.profile (· - 1) = c :=
    fun c => by
      cases c with
      | empty => rfl
      | filling i => rfl
      | filled i p n => by_cases hi : i = m.profile <;> simp [CacheSlot.mapCount, hi]
  have hslots : (s.cache.slots.map (CacheSlot.mapCount m.profile (· + 1))).map
      (CacheSlot.mapCount m.profile (· - 1)) = s.cache.slots :=
    table_ext fun c => by rw [tget_map, tget_map, hcount]
  have hlive : tmod (tmod s.table.liveCount slot (· + 1)) slot (· - 1) = s.table.liveCount := by
    rw [tmod_tmod]
    exact tmod_of_fixed _ _ _ (Nat.add_sub_cancel ..)
  rw [noticeInto, settleRecord, hst]
  dsimp only
  rw [retire, getRecord_modLive, getRecord_setRecord_self, modCount, modLive, modLive, setRecord,
    setRecord, tset_tset]
  dsimp only [noticeRecord]
  rw [hprofile]
  dsimp only
  rw [hslots, hlive]

/-- A message's answer and the flag of a late one reach links and port alone. -/
theorem answered_frame (slot : Slot) (a : Answer) (start : Time) (u : State) :
    setAnswer slot a (latchLate start u) = { u with
      port := if decide (InsideLead start u.now) then (latch .noticeLate u).port else u.port
      links := (setAnswer slot a u).links } := by
  rw [latchLate_eq]
  cases decide (InsideLead start u.now) <;> rfl

/-- The answer to a NOTICE that passes every check. -/
theorem noticePresent_of_passed {length : Nat} (hlen : ProvisionalLength m s length)
    (htag : ∀ q : RecordNo, ¬ Names q slot m.tag s) (hlive : getLive slot s < 3)
    (hbad : unusable m.profile s = false)
    (hfar : ¬ After (readStamp s.now m.start) (s.now + 4096))
    (hstale : ¬ AtOrBefore (readStamp s.now m.start + BitVec.ofNat 32 length + 15) s.now)
    (hfree : (getRecord r s).state = .free) (hlow : ∀ q : RecordNo, q < r → isLive (getRecord q s))
    (hroom : absentProfile m.profile s = true → s.cache.queue.length < 16) :
    noticePresent slot m s = (leadReply (readStamp s.now m.start) s.now,
      latchLate (readStamp s.now m.start) (noticeInto r slot m s)) := by
  have hr : (firstWhere s.table.records fun v => !isLive v) = some r := by
    refine firstWhere_eq_some ?_ fun q hq => ?_
    · show (!decide ((getRecord r s).state ≠ .free)) = true
      rw [hfree]
      rfl
    · have hq' : isLive (tget s.table.records q) = true := hlow q hq
      rw [hq']
      rfl
  have hpass : noticeRefusal slot m s = none := by
    have hbusy : ¬ (absentProfile m.profile s && queueFull s) = true := fun h => by
      obtain ⟨ha, hf⟩ := Bool.and_eq_true_iff.mp h
      exact absurd (hroom ha) (not_lt.mpr ((queueFull_iff s).mp hf))
    rw [noticeRefusal, findTag_eq_none.mpr htag, noticeLength_of_provisional hlen, hr, hbad,
      if_neg Bool.false_ne_true, if_neg (not_le.mpr hlive)]
    exact (if_neg Bool.false_ne_true).trans <| (if_neg hfar).trans ((if_neg hstale).trans ((if_neg nofun).trans (if_neg hbusy)))
  rw [noticePresent, hpass, hr]

end

/-- Settles O28: by the state that the present time gives the record filled. -/
theorem noticesThatPassFillTheLowestFreeRecord :
    Obligations.NoticesThatPassFillTheLowestFreeRecord := by
  unfold Obligations.NoticesThatPassFillTheLowestFreeRecord
  intro slot m s r length hl hm hlen hp htag hlive hbad hfar hstale hfree hlow hroom start late v
  have hlate : late = decide (InsideLead start s.now) :=
    (decide_eq_decide.mpr (insideLead_iff _ _)).symm
  have hv : v = noticeRecord slot m s := by
    rw [noticeRecord, noticeLength_of_provisional hlen, ← hlate]
    refine SourceRecord.mk.injEq .. |>.mpr ⟨rfl, rfl, rfl, rfl, rfl, rfl, ?_, rfl, rfl, rfl, ?_⟩
    · cases residentSamples m.profile s with
      | none => rfl
      | some p => cases m.limit <;> rfl
    · rw [residentSamples, Option.isNone_map]
  have hexec := exec_notice_of_answer hl hm hp (noticePresent_of_passed hlen htag hlive hbad hfar
    hstale hfree hlow hroom)
  rw [answered_frame, leadReply_eq] at hexec
  clear_value v late
  subst hv hlate
  refine ⟨fun h => ⟨residentSamples_eq_none h, residentSlot_eq_none h⟩,
    fun c p h => ⟨residentSamples_of_resident h, residentSlot_of_resident h⟩, _, hexec, ?_⟩
  cases hst : (noticeRecord slot m s).stateAt s.now with
  | some st =>
    rw [noticeInto_of_running hst, noticeProfile_frame]
    refine ⟨fun q hq => tget_tset_of_ne _ _ hq, ⟨tget_tset_self .., fun x => tget_tmod ..,
      fun c => tget_map ..⟩, rfl, rfl, ?_, rfl, rfl⟩
    exact congrArg LinkSlot.window (tget_tmod_self ..)
  | none =>
    rw [noticeInto_of_past hst, noticeProfile_frame]
    refine ⟨fun q hq => tget_tset_of_ne _ _ hq, ⟨tget_tset_self .., fun x => rfl, rfl⟩, rfl, rfl,
      ?_, rfl, rfl⟩
    exact congrArg LinkSlot.window (tget_tmod_self ..)

end Sys2Proof.Machine
end

section
/-! PROOF. The falls of counts from 1 (R102, R112, R133, R144), and STATUS (spec/08 section 8.4)
with its residual arrival (spec/05). -/

namespace Sys2Proof.Machine

open Sys2Proof

section

variable {s t : State} {slot : Slot} {u : Target} {k : Station}

/-! ### Changes of one entry that agree on it -/

theorem tmod_congr {α : Type} {n : Nat} {l : Vector α n} {i : Fin n} {f g : α → α}
    (h : f (tget l i) = g (tget l i)) : tmod l i f = tmod l i g := by
  rw [tmod, tmod, h]

theorem modAdapt_congr {f g : AdaptRecord → AdaptRecord} (h : f (getAdapt u s) = g (getAdapt u s)) :
    modAdapt u f s = modAdapt u g s := by
  rw [modAdapt, modAdapt, tmod_congr h]

theorem modStation_congr {f g : StationState → StationState}
    (h : f (getStation k s) = g (getStation k s)) : modStation k f s = modStation k g s := by
  rw [modStation, modStation, tmod_congr h]

theorem modSuppression_congr {f g : SuppressionRecord → SuppressionRecord}
    (h : f (getSuppression slot s) = g (getSuppression slot s)) :
    modSuppression slot f s = modSuppression slot g s := by
  rw [modSuppression, modSuppression, tmod_congr h]

/-! ### The falls, by their conditions -/

/-- A fall that is not due has no effect. -/
theorem not_due_of {b : BoundaryPhase} {due : Bool} (h : b = .quiet ∨ due = false) :
    ¬ (b ≠ .quiet ∧ due = true) := fun hand =>
  h.elim (fun hb => hand.1 hb) fun hd => absurd hand.2 (by rw [hd]; exact Bool.false_ne_true)

theorem settleEnd_of_due (hb : s.boundary ≠ .quiet) (hd : (getAdapt u s).settleDue = true) :
    settleEnd u s = modAdapt u (fun a => { a with settle := a.settle - 1, settleDue := false }) s :=
  if_pos ⟨hb, hd⟩

theorem divergenceHoldEnd_of_due (hb : s.boundary ≠ .quiet) (hd : (getAdapt u s).holdDue = true) :
    divergenceHoldEnd u s = if (getAdapt u s).hold = 1 then
        modAdapt u (fun a => { a with
          hold := 0, holdDue := false, settle := s.settings.global.settle, settleDue := false }) s
      else modAdapt u (fun a => { a with hold := a.hold - 1, holdDue := false }) s :=
  if_pos ⟨hb, hd⟩

theorem shockHoldEnd_of_due (hb : s.boundary ≠ .quiet) (hd : (getStation k s).shockDue = true) :
    shockHoldEnd k s = if (getStation k s).shockHold = 1 then
        modStation k (fun st => { st with shockHold := 0, shockDue := false, y1 := 0, y2 := 0 }) s
      else modStation k (fun st => { st with shockHold := st.shockHold - 1, shockDue := false }) s :=
  if_pos ⟨hb, hd⟩

theorem holdExpiry_of_due (hb : s.boundary ≠ .quiet)
    (hd : (getSuppression slot s).fallDue = true) :
    holdExpiry slot s = if (getSuppression slot s).hold = 1 then
        modSuppression slot (SuppressionRecord.expire (modeOf slot s)) s
      else modSuppression slot (fun r => { r with hold := r.hold - 1, fallDue := false }) s :=
  if_pos ⟨hb, hd⟩

/-- A hold expires to AWAITING-CLEAR in mode LATCHED without a clear request, and to CLEAR
otherwise. -/
theorem expire_eq (mode : SuppressionMode) (r : SuppressionRecord) : r.expire mode =
    { state := if mode = .latched ∧ r.clearRequested = false then .awaitingClear else .clear
      hold := 0, clearRequested := false, fallDue := false } := by
  cases mode with
  | frame => rfl
  | latched => cases hc : r.clearRequested <;> simp [SuppressionRecord.expire, hc]

end

/-- Settles O24, fall by fall. -/
theorem countsEndAtTheirFallFromOne : Obligations.CountsEndAtTheirFallFromOne := by
  unfold Obligations.CountsEndAtTheirFallFromOne
  intro s hs
  have hexec : ∀ f, afterEvents f s = .next (f s) := fun f => afterEvents_of_ready f hs
  refine ⟨fun u hb hd h1 => (hexec _).trans (congrArg _ ?_),
    fun u hb hd h1 => (hexec _).trans (congrArg _ ?_),
    fun k hb hd h1 => (hexec _).trans (congrArg _ ?_),
    fun slot hb hd h1 => (hexec _).trans (congrArg _ ?_),
    fun u hb hd h1 => (hexec _).trans (congrArg _ ?_),
    fun u hb hd h1 => (hexec _).trans (congrArg _ ?_),
    fun k hb hd h1 => (hexec _).trans (congrArg _ ?_),
    fun slot hb hd h1 => (hexec _).trans (congrArg _ ?_),
    fun u h => (hexec _).trans (congrArg _ (if_neg (not_due_of h))),
    fun u h => (hexec _).trans (congrArg _ (if_neg (not_due_of h))),
    fun k h => (hexec _).trans (congrArg _ (if_neg (not_due_of h))),
    fun slot h => (hexec _).trans (congrArg _ (if_neg (not_due_of h)))⟩
  · rw [settleEnd_of_due hb hd]
    exact modAdapt_congr (by rw [h1])
  · rw [divergenceHoldEnd_of_due hb hd, if_pos h1]
  · rw [shockHoldEnd_of_due hb hd, if_pos h1]
  · rw [holdExpiry_of_due hb hd, if_pos h1]
    exact modSuppression_congr (expire_eq _ _)
  · rw [settleEnd_of_due hb hd]
  · rw [divergenceHoldEnd_of_due hb hd, if_neg h1]
  · rw [shockHoldEnd_of_due hb hd, if_neg h1]
  · rw [holdExpiry_of_due hb hd, if_neg h1]

end Sys2Proof.Machine
end

section
/-! PROOF. Residual arrivals and the steps they take (spec/05), and STATUS (spec/08 section 8.4). -/

namespace Sys2Proof.Machine

open Sys2Proof

section

variable {s t : State} {slot : Slot} {u : Target} {r : EvalRecord} {place : Nat} {e : Int}
  {parked : Bool}

/-! ### Arrivals (R99, R103) -/

/-- R99's conditions. -/
theorem arrivalIgnored_iff : arrivalIgnored u r parked s = true ↔
    (getAdapt u s).frozen = true ∨ (targetSettings u s).enabled = false ∨ 0 < (getAdapt u s).hold ∨
      0 < (getAdapt u s).settle ∨ r.suppressed = true ∨ r.parked = true ∨
      r.bank ≠ s.store.active ∨ r.partialFlag = true ∨ r.overflow = true ∨ parked = true := by
  simp only [arrivalIgnored, Bool.or_eq_true, Bool.not_eq_true', decide_eq_true_eq, or_assoc]

theorem arrival_of_ignored (h : arrivalIgnored u r parked s = true) :
    arrival place u e r parked s = s :=
  if_pos h

theorem arrival_of_counted (h : ¬ arrivalIgnored u r parked s = true)
    (hn : (getAdapt u s).postscaler + 1 < (targetSettings u s).interval) :
    arrival place u e r parked s = setPostscaler u ((getAdapt u s).postscaler + 1) s :=
  (if_neg h).trans (if_neg (not_le.mpr hn))

theorem arrival_of_step (h : ¬ arrivalIgnored u r parked s = true)
    (hn : (targetSettings u s).interval ≤ (getAdapt u s).postscaler + 1) :
    arrival place u e r parked s = queueStep (stepFor place u e r s) (setPostscaler u 0 s) :=
  (if_neg h).trans (if_pos hn)

theorem queueStep_frame (st : Step) (s : State) :
    queueStep st s = { s with adaptation := (queueStep st s).adaptation } := by
  unfold queueStep
  split <;> rfl

/-- A step taken changes no adaptation record. -/
theorem records_queueStep (st : Step) (s : State) :
    (queueStep st s).adaptation.records = s.adaptation.records := by
  unfold queueStep
  split <;> rfl

theorem getAdapt_queueStep (st : Step) (s : State) (x : Target) :
    getAdapt x (queueStep st s) = getAdapt x s := by
  rw [getAdapt, getAdapt, records_queueStep]

theorem arrival_frame (place : Nat) (u : Target) (e : Int) (r : EvalRecord) (parked : Bool)
    (s : State) : arrival place u e r parked s =
      { s with adaptation := (arrival place u e r parked s).adaptation } := by
  unfold arrival countArrival
  split
  · rfl
  · split
    · rw [queueStep_frame]
      rfl
    · rfl

/-! ### Steps (R104, R105, R94) -/

theorem givesUpdate_eq (theta : Nat) : givesUpdate theta = fun c =>
    decide (c.blanked = false ∧ c.x ≠ 0 ∧ theta ≤ c.x.natAbs) := by
  funext c
  rw [givesUpdate, ← Bool.decide_eq_false, Bool.and_assoc, Bool.decide_and, Bool.decide_and]

/-- The updates of a step, one for each contributor that gives one. -/
theorem stepUpdates_eq (g : TargetSettings) (theta : Nat) (e : Int) (r : EvalRecord) :
    stepUpdates g theta e r =
      if e.natAbs < g.deadband ∨ e = 0 then []
      else (r.contributors.filter fun c => decide (c.blanked = false ∧ c.x ≠ 0 ∧
          theta ≤ c.x.natAbs)).map
        fun c => ⟨c.source, decide (0 < e ↔ 0 < c.x), g.mu, g.gmax⟩ := by
  rw [stepUpdates, givesUpdate_eq]
  rfl

theorem joinQueue_eq (l : List Step) (st : Step) : joinQueue l st =
    if queuedUpdates l + st.updates.length ≤ 256 then l ++ [st] else l := by
  rw [joinQueue]
  by_cases h : queuedUpdates l + st.updates.length ≤ 256
  · rw [if_pos h]
    exact if_neg (not_lt.mpr h)
  · rw [if_neg h]
    exact if_pos (not_le.mp h)

/-- A step of a moment that does not stand open finds the steps in flight as they are. -/
theorem momentOf_new {st : Step} {a : AdaptationEngine}
    (h : ∀ m ∈ a.openMoment, m.moment ≠ st.moment) : momentOf st a = ⟨st.moment, a.steps, []⟩ := by
  rw [momentOf]
  cases hm : a.openMoment with
  | none => rfl
  | some m => exact if_neg (h m hm)

theorem queueStep_of_none {st : Step} (h : st.updates = []) : queueStep st s = s := if_pos h

theorem queueStep_of_some {st : Step} (h : st.updates ≠ []) :
    queueStep st s = openMoment ((momentOf st s.adaptation).take st) s := if_neg h

/-- The first step of a moment joins the queue behind the steps in flight. -/
theorem steps_queueStep_new {st : Step} (h : st.updates ≠ [])
    (hnew : ∀ m ∈ s.adaptation.openMoment, m.moment ≠ st.moment) :
    (queueStep st s).adaptation.steps = if queuedUpdates s.adaptation.steps + st.updates.length ≤ 256
      then s.adaptation.steps ++ [st] else s.adaptation.steps := by
  rw [queueStep_of_some h, momentOf_new hnew]
  exact joinQueue_eq _ _

/-! ### STATUS (R156) -/

/-- The state in which a PRESENT slot's STATUS has set drive state, shock and last residual. -/
def statusTaken (slot : Slot) (m : StatusFields) (s : State) : State :=
  setLastResidual (slotTarget slot) m.residual.toInt
    (statusShock slot m.shock (setDrive slot m.drive s))

/-- The shock flag of a STATUS reaches suppression and port alone. -/
theorem statusShock_frame (slot : Slot) (shock : Bool) (s : State) : statusShock slot shock s =
    { s with
      suppression := (statusShock slot shock s).suppression
      port := (statusShock slot shock s).port } := by
  cases shock <;> rfl

theorem statusTaken_frame (slot : Slot) (m : StatusFields) (s : State) : statusTaken slot m s =
    { s with
      suppression := (statusTaken slot m s).suppression
      port := (statusTaken slot m s).port
      links := (setDrive slot m.drive s).links
      adaptation := (setLastResidual (slotTarget slot) m.residual.toInt s).adaptation } := by
  rw [statusTaken, statusShock_frame]
  rfl

/-- The drive state leaves a slot's presence. -/
theorem effective_setDrive (slot : Slot) (d : DriveState) (s : State) :
    (getLink slot (setDrive slot d s)).effective = (getLink slot s).effective := by
  rw [setDrive, getLink_modLink, if_pos rfl]
  rfl

theorem effective_statusShock (slot : Slot) (shock : Bool) (s : State) (x : Slot) :
    (getLink x (statusShock slot shock s)).effective = (getLink x s).effective := by
  cases shock <;> rfl

/-- The residual of an ABSENT slot's STATUS is not handed on. -/
theorem takeStatus_of_absent (m : StatusFields) (h : (getLink slot s).effective = .absent) :
    takeStatus slot m s =
      setAnswer slot ⟨true, .none, 0⟩ (statusShock slot m.shock (setDrive slot m.drive s)) := by
  rw [takeStatus, statusHandResidual, effective_statusShock, effective_setDrive, h]

/-- The arrival of a PRESENT slot's STATUS. -/
theorem takeStatus_of_present (m : StatusFields) (h : (getLink slot s).effective = .present) :
    takeStatus slot m s = setAnswer slot ⟨true, .none, 0⟩
      (match matchTag m.frameTag.val (getRing (slotTarget slot) s) with
      | some r => arrival (1 + position slot) (slotTarget slot) m.residual.toInt r
          (decide (m.drive = .parked)) (statusTaken slot m s)
      | none => statusTaken slot m s) := by
  have hring : getRing (slotTarget slot) (statusTaken slot m s) = getRing (slotTarget slot) s := by
    rw [statusTaken_frame]
    rfl
  rw [takeStatus, statusHandResidual, effective_statusShock, effective_setDrive, h]
  dsimp only
  rw [statusResidual, ← statusTaken, hring] <;> rfl

theorem getAdapt_statusTaken (slot : Slot) (m : StatusFields) (s : State) (x : Target) :
    getAdapt x (statusTaken slot m s) = if x = slotTarget slot
      then { getAdapt x s with lastResidual := m.residual.toInt } else getAdapt x s := by
  rw [getAdapt, statusTaken_frame]
  exact tget_tmod ..

theorem getAdapt_setPostscaler (u : Target) (n : Nat) (s : State) (x : Target) :
    getAdapt x (setPostscaler u n s) =
      if x = u then { getAdapt x s with postscaler := n } else getAdapt x s :=
  tget_tmod ..

/-- An arrival leaves the last residual of every target, and all of every other target's record. -/
theorem lastResidual_arrival (place : Nat) (u : Target) (e : Int) (r : EvalRecord) (parked : Bool)
    (s : State) (x : Target) :
    (getAdapt x (arrival place u e r parked s)).lastResidual = (getAdapt x s).lastResidual := by
  unfold arrival countArrival
  split
  · rfl
  · split
    · rw [getAdapt_queueStep, getAdapt_setPostscaler]
      split <;> rfl
    · rw [getAdapt_setPostscaler]
      split <;> rfl

theorem getAdapt_arrival_of_ne (place : Nat) (e : Int) (r : EvalRecord) (parked : Bool)
    {x : Target} (h : x ≠ u) : getAdapt x (arrival place u e r parked s) = getAdapt x s := by
  unfold arrival countArrival
  split
  · rfl
  · split
    · rw [getAdapt_queueStep, getAdapt_setPostscaler, if_neg h]
    · rw [getAdapt_setPostscaler, if_neg h]

end

/-- Settles O33: the three steps of R156 in their order, and the arrival by R99 and R103. -/
theorem statusesSetDriveShockAndResidualAndArrive :
    Obligations.StatusesSetDriveShockAndResidualAndArrive := by
  unfold Obligations.StatusesSetDriveShockAndResidualAndArrive
  refine ⟨fun slot m s hl => ?_, fun slot m s r hl hp hr => ?_⟩
  · intro s1 s2 s3
    have hs2 : statusShock slot m.shock (setDrive slot m.drive s) = s2 := rfl
    have hs3 : statusTaken slot m s = s3 := rfl
    have hexec : exec (.status slot m) s = .next (takeStatus slot m s) := message_of_listens _ hl
    refine ⟨fun hp => hexec.trans (congrArg _ (takeStatus_of_absent m hp)), fun hp hnone => ?_,
      fun hp => ⟨_, hexec, ?_⟩⟩
    · have hmatch : matchTag m.frameTag.val (getRing (slotTarget slot) s) = none :=
        List.find?_eq_none.mpr fun x hx => by
          rw [decide_eq_true_iff]
          exact hnone x hx
      rw [hexec, takeStatus_of_present m hp, hmatch, ← hs3]
    · rw [takeStatus_of_present m hp, ← hs3]
      have hlast : (getAdapt (slotTarget slot) (statusTaken slot m s)).lastResidual =
          m.residual.toInt := by rw [getAdapt_statusTaken, if_pos rfl]
      cases matchTag m.frameTag.val (getRing (slotTarget slot) s) with
      | none => exact ⟨hlast, rfl⟩
      | some r =>
        refine ⟨(lastResidual_arrival ..).trans hlast, ?_⟩
        dsimp only
        rw [arrival_frame]
        rfl
  · intro u g a e ignored updates st
    have hmatch : matchTag m.frameTag.val (getRing (slotTarget slot) s) = some r := hr
    have hexec : exec (.status slot m) s = .next (setAnswer slot ⟨true, .none, 0⟩
        (arrival (1 + position slot) u e r (decide (m.drive = .parked)) (statusTaken slot m s))) := by
      refine (message_of_listens _ hl).trans (congrArg _ ?_)
      rw [takeStatus_of_present m hp, hmatch]
    have hframe := statusTaken_frame slot m s
    have hadapt : getAdapt u (statusTaken slot m s) = { a with lastResidual := e } := by
      rw [getAdapt_statusTaken, if_pos rfl]
    have hsettings : targetSettings u (statusTaken slot m s) = g := by rw [hframe]; rfl
    have hsteps : (statusTaken slot m s).adaptation.steps = s.adaptation.steps := by rw [hframe]; rfl
    have hignored : arrivalIgnored u r (decide (m.drive = .parked)) (statusTaken slot m s) = true ↔
        ignored := by
      rw [arrivalIgnored_iff, hadapt, hsettings, decide_eq_true_iff, hframe]
    refine ⟨_, hexec, fun x hx => ?_, fun hi => ?_, fun hi hn => ?_, fun hi hn => ?_⟩
    · show getAdapt x (arrival _ u e r _ _) = _
      rw [getAdapt_arrival_of_ne _ _ _ _ hx, getAdapt_statusTaken, if_neg hx]
    · rw [arrival_of_ignored (hignored.mpr hi)]
      exact ⟨hadapt, hsteps⟩
    · rw [arrival_of_counted (mt hignored.mp hi) (by rw [hadapt, hsettings]; exact hn)]
      refine ⟨?_, hsteps⟩
      show getAdapt u (setPostscaler u _ _) = _
      rw [getAdapt_setPostscaler, if_pos rfl, hadapt]
    · rw [arrival_of_step (mt hignored.mp hi) (by rw [hadapt, hsettings]; exact hn)]
      have hst : stepFor (1 + position slot) u e r (statusTaken slot m s) = st := by
        rw [stepFor, stepUpdates_eq, hsettings, hframe]
        rfl
      rw [hst]
      refine ⟨?_, fun hnone => ?_, fun hsome hnew => ?_⟩
      · show getAdapt u (queueStep st _) = _
        rw [getAdapt_queueStep, getAdapt_setPostscaler, if_pos rfl, hadapt]
      · rw [queueStep_of_none hnone]
        exact hsteps
      · refine (steps_queueStep_new hsome ?_).trans ?_
        · rw [hframe]
          exact hnew
        · rw [show (setPostscaler u 0 (statusTaken slot m s)).adaptation.steps = _ from hsteps]

end Sys2Proof.Machine
end

section
/-! PROOF. The management commands of the stations, the suppression and the presence (R129, R145,
R146, R160). -/

namespace Sys2Proof.Machine

open Sys2Proof

section

variable {s : State}

/-! ### Choices by their byte (R165, R176) -/

theorem slotOf_of_eq {b : Byte} {slot : Slot} (h : b.toNat = slot.val) : slotOf b = some slot :=
  below_eq_some.2 h

theorem slotOf_of_gt {b : Byte} (h : 95 < b.toNat) : slotOf b = none := below_eq_none.2 h

theorem stationOf_of_eq {b : Byte} {k : Station} (h : b.toNat = k.val) : stationOf b = some k :=
  below_eq_some.2 h

theorem stationOf_of_gt {b : Byte} (h : 15 < b.toNat) : stationOf b = none := below_eq_none.2 h

theorem lockModeOf_of_le : ∀ b : Byte, b.toNat ≤ 2 → lockModeOf b =
    some (if b = 0 then some .locked else if b = 1 then some .unlocked else none) := by
  decide

theorem lockModeOf_of_gt : ∀ b : Byte, 2 < b.toNat → lockModeOf b = none := by
  decide

theorem presenceModeOf_of_le : ∀ b : Byte, b.toNat ≤ 3 → presenceModeOf b =
    some (if b = 0 then .present else if b = 1 then .absent else if b = 2 then .release
      else .keep) := by
  decide

theorem presenceModeOf_of_gt : ∀ b : Byte, 3 < b.toNat → presenceModeOf b = none := by
  decide

/-! ### FORCE-LOCK (R129) -/

theorem forceLock_of_bad {a : ForceArgs} (h : 15 < a.index.toNat ∨ 2 < a.mode.toNat) :
    forceLock a s = respond (bare .badArgument) s := by
  unfold forceLock
  rcases h with h | h
  · rw [stationOf_of_gt h]
  · rw [lockModeOf_of_gt _ h]
    cases stationOf a.index <;> rfl

theorem forceLock_of_named {a : ForceArgs} {k : Station} {force : Option Lock}
    (hk : stationOf a.index = some k) (hm : lockModeOf a.mode = some force) :
    forceLock a s = respond okResponse (changeLock k (fun st => { st with force := force }) s) := by
  rw [forceLock, hk, hm]

end

/-- Settles O53: the bytes name a station and a force, and a change of the effective state takes the
entry actions of the state that it comes to. -/
theorem forceLockSetsTheForceAndItsEntryActions :
    Obligations.ForceLockSetsTheForceAndItsEntryActions := by
  intro a s hs
  have hexec : exec (.forceLock (.fields a)) s = .next (forceLock a (endTransaction s)) :=
    manage_of_fields a forceLock hs
  refine ⟨fun hbad => by rw [hexec, forceLock_of_bad hbad, respond_endTransaction],
    fun k hk hmode => ?_⟩
  intro force after
  rw [hexec, forceLock_of_named (stationOf_of_eq hk) (lockModeOf_of_le _ hmode)]
  have heff : ∀ st : StationState, { st with force := force }.effective = force.getD st.detected :=
    fun st => rfl
  have hcases := changeLock_cases k (fun st => { st with force := force }) (endTransaction s)
  refine ⟨fun hsame => ?_, fun hafter hbefore => ?_, fun hafter hbefore => ?_⟩
  · rcases hcases with ⟨-, h⟩ | ⟨h1, h2, -⟩ | ⟨h1, h2, -⟩
    · exact congrArg (fun x => Host.Outcome.next (respond okResponse x)) h
    · exact absurd (h2.symm.trans (hsame.trans h1)) (by decide)
    · exact absurd (h2.symm.trans (hsame.trans h1)) (by decide)
  · rcases hcases with ⟨h, -⟩ | ⟨-, -, h⟩ | ⟨h1, -, -⟩
    · exact absurd (hafter.symm.trans (h.trans hbefore)) (by decide)
    · exact congrArg (fun x => Host.Outcome.next (respond okResponse x)) h
    · exact absurd (h1.symm.trans hbefore) (by decide)
  · rcases hcases with ⟨h, -⟩ | ⟨h1, -, -⟩ | ⟨-, -, h⟩
    · exact absurd (hafter.symm.trans (h.trans hbefore)) (by decide)
    · exact absurd (h1.symm.trans hbefore) (by decide)
    · exact congrArg (fun x => Host.Outcome.next (respond okResponse x)) h

/-! ### SUPPRESS-CLEAR and HOLD-SHORTEN (R145, R146) -/

section

variable {s : State}

theorem requestClear_eq (r : SuppressionRecord) : r.requestClear =
    if r.state = .awaitingClear then { r with state := .clear }
    else if r.state = .held then { r with clearRequested := true } else r := by
  unfold SuppressionRecord.requestClear
  cases hst : r.state <;> rfl

theorem shorten_eq (r : SuppressionRecord) : r.shorten =
    if r.state = .held then { r with hold := min r.hold 10 } else r := by
  unfold SuppressionRecord.shorten
  cases hst : r.state <;> rfl

theorem suppressionResponse_modSuppression (slot : Slot)
    (f : SuppressionRecord → SuppressionRecord) (s : State) :
    suppressionResponse slot (modSuppression slot f s) =
      okWith (.suppression (f (getSuppression slot s)).state (f (getSuppression slot s)).hold
        (f (getSuppression slot s)).clearRequested (tget s.settings.slots slot).mode) := by
  simp only [suppressionResponse, getSuppression_modSuppression, if_true]
  rfl

theorem suppressClear_of_slot {b : Byte} {slot : Slot} (h : slotOf b = some slot) :
    suppressClear b s = respond
      (suppressionResponse slot (modSuppression slot SuppressionRecord.requestClear s))
      (modSuppression slot SuppressionRecord.requestClear s) := by
  rw [suppressClear, h]

theorem holdShorten_of_slot {b : Byte} {slot : Slot} (hb : b ≠ 0xFF) (h : slotOf b = some slot) :
    holdShorten b s = respond
      (suppressionResponse slot (modSuppression slot SuppressionRecord.shorten s))
      (modSuppression slot SuppressionRecord.shorten s) := by
  rw [holdShorten, if_neg hb, h]

theorem length_indicesWhere {α : Type} {n : Nat} (l : Vector α n) (p : α → Bool) :
    (indicesWhere l p).length = (List.finRange n).countP fun i => p (tget l i) :=
  List.countP_eq_length_filter.symm

end

/-- Settles O54: of one slot by its record, of all slots by the table. -/
theorem suppressionCommandsActByTheSlotsState :
    Obligations.SuppressionCommandsActByTheSlotsState := by
  have hclear : ∀ (b : Byte) (s : State), TakesFrames s →
      exec (.suppressClear (.fields b)) s = .next (suppressClear b (endTransaction s)) :=
    fun b s hs => manage_of_fields b suppressClear hs
  have hshorten : ∀ (b : Byte) (s : State), TakesFrames s →
      exec (.holdShorten (.fields b)) s = .next (holdShorten b (endTransaction s)) :=
    fun b s hs => manage_of_fields b holdShorten hs
  refine ⟨fun b s hs => ⟨fun hb => ⟨?_, fun hne => ?_⟩, fun slot hslot => ?_⟩, fun s hs => ?_⟩
  · rw [hclear b s hs, suppressClear, slotOf_of_gt hb, respond_endTransaction]
  · rw [hshorten b s hs, holdShorten, if_neg hne, slotOf_of_gt hb, respond_endTransaction]
  · intro r mode cleared shortened
    have hne : b ≠ 0xFF := by
      rintro rfl
      have := slot.isLt
      simp at hslot
      omega
    have hc : (getSuppression slot (endTransaction s)).requestClear = cleared := requestClear_eq r
    have hsh : (getSuppression slot (endTransaction s)).shorten = shortened := shorten_eq r
    constructor
    · rw [hclear b s hs, suppressClear_of_slot (slotOf_of_eq hslot),
        suppressionResponse_modSuppression, hc, ← hc]
      rfl
    · rw [hshorten b s hs, holdShorten_of_slot hne (slotOf_of_eq hslot),
        suppressionResponse_modSuppression, hsh, ← hsh]
      rfl
  · refine ⟨_, hshorten 0xFF s hs, fun slot => ?_, ?_, rfl⟩
    · rw [← shorten_eq]
      exact tget_map ..
    · have hlow : ∀ r : SuppressionRecord,
          r.lowered = decide (r.state = .held ∧ 10 < r.hold) := fun r =>
        (Bool.decide_and ..).symm
      show okWith (.shortened _ _) = _
      rw [length_indicesWhere, length_indicesWhere]
      simp only [hlow]
      rfl

end Sys2Proof.Machine
end

section
/-! PROOF. Presence: what the entry actions change (R159), and FORCE-PRESENCE (R160). -/

namespace Sys2Proof.Machine

open Sys2Proof

section

variable {s t : State} {slot : Slot}

/-! ### The entry actions (R159) -/

/-- A purge reaches the table and the cache's slots alone. -/
theorem purgeSlot_eq (slot : Slot) (s : State) : ∃ records slots,
    purgeSlot slot s = { s with table := records, cache := { s.cache with slots := slots } } := by
  unfold purgeSlot
  generalize liveOfSlot slot s = l
  induction l generalizing s with
  | nil => exact ⟨s.table, s.cache.slots, rfl⟩
  | cons r l ih =>
    obtain ⟨records, slots, h⟩ := ih (retire r s)
    exact ⟨records, slots, h⟩

/-- A purge leaves the records of other slots. -/
theorem getRecord_purgeSlot_of_ne {r : RecordNo} (h : (getRecord r s).slot ≠ slot) :
    getRecord r (purgeSlot slot s) = getRecord r s := by
  unfold purgeSlot
  rw [getRecord_retireAll, if_neg fun hr => h ((mem_liveOfSlot slot r s).1 hr).2]

theorem getRecord_enterAbsent (slot : Slot) (r : RecordNo) (s : State) :
    getRecord r (enterAbsent slot s) = getRecord r (purgeSlot slot s) := by
  unfold enterAbsent
  generalize purgeSlot slot s = p
  rfl

theorem findEvaluation_dropEvaluation (u : Target) (s : State) :
    findEvaluation u (dropEvaluation u s) = none := by
  refine List.find?_eq_none.2 fun e he hu => ?_
  have hmem : e ∈ s.prediction.evaluations.filter fun e => decide (e.target ≠ u) := he
  exact of_decide_eq_true (List.mem_filter.1 hmem).2 (of_decide_eq_true hu)

theorem enterAbsent_spec (slot : Slot) (s : State) : EnteredAbsent slot s (enterAbsent slot s) := by
  obtain ⟨records, slots, hp⟩ := purgeSlot_eq slot s
  refine ⟨fun r hr => ?_, fun r hr => ?_, ?_⟩
  · rw [getRecord_enterAbsent] at hr ⊢
    exact slot_ne_of_live_purgeSlot hr
  · rw [getRecord_enterAbsent]
    exact getRecord_purgeSlot_of_ne hr
  refine ⟨tget_tset_self .., findEvaluation_dropEvaluation (slotTarget slot) _, ?_⟩
  unfold enterAbsent
  rw [hp]
  exact ⟨rfl, rfl, rfl, rfl, rfl, rfl, rfl, rfl, rfl, rfl, rfl, rfl,
    fun _ hu => tget_tset_of_ne _ _ hu⟩

theorem enterPresent_spec (slot : Slot) (s : State) :
    EnteredPresent slot s (enterPresent slot s) :=
  ⟨tget_tmod_self .., fun _ hu => tget_tmod_of_ne _ _ hu, rfl, rfl, rfl, rfl, rfl, rfl, rfl, rfl,
    rfl⟩

/-- An entry into ABSENT reaches, of the links, the window of its slot alone. -/
theorem getLink_enterAbsent (slot x : Slot) (s : State) : getLink x (enterAbsent slot s) =
    if x = slot then { getLink slot s with window := (getLink slot s).window.abandon absentBlock }
    else getLink x s := by
  have h : ∀ y, getLink y (dropEvaluation (slotTarget slot) (setRing (slotTarget slot) []
      (purgeSlot slot s))) = getLink y s := fun y => getLink_purgeSlot slot y s
  refine (getLink_modLink slot x _ _).trans ?_
  by_cases hx : x = slot
  · subst hx
    rw [if_pos rfl, if_pos rfl, h x]
  · rw [if_neg hx, if_neg hx, h x]

theorem getLink_enterPresent (slot x : Slot) (s : State) :
    getLink x (enterPresent slot s) = getLink x s := rfl

/-- A change of presence leaves all of its slot's link but the window. -/
theorem getLink_changePresence_self (slot : Slot) (f : LinkSlot → LinkSlot) (s : State) :
    ∃ w, getLink slot (changePresence slot f s) = { f (getLink slot s) with window := w } := by
  rcases changePresence_cases slot f s with ⟨-, h⟩ | ⟨-, -, h⟩ | ⟨-, -, h⟩
  · exact ⟨(f (getLink slot s)).window, by rw [h, getLink_modLink, if_pos rfl]⟩
  · exact ⟨(f (getLink slot s)).window.abandon absentBlock, by
      rw [h, getLink_enterAbsent, if_pos rfl, getLink_modLink, if_pos rfl]⟩
  · exact ⟨(f (getLink slot s)).window, by
      rw [h, getLink_enterPresent, getLink_modLink, if_pos rfl]⟩

theorem effective_changePresence (slot : Slot) (f : LinkSlot → LinkSlot) (s : State) :
    (getLink slot (changePresence slot f s)).effective = (f (getLink slot s)).effective := by
  obtain ⟨w, h⟩ := getLink_changePresence_self slot f s
  rw [h]
  rfl

/-- Where a change of presence makes a PRESENT slot ABSENT. -/
theorem changePresence_of_absent (f : LinkSlot → LinkSlot)
    (hs : (getLink slot s).effective = .present) (hf : (f (getLink slot s)).effective = .absent) :
    changePresence slot f s = enterAbsent slot (modLink slot f s) := by
  rcases changePresence_cases slot f s with ⟨h, -⟩ | ⟨-, -, h⟩ | ⟨h, -, -⟩
  · exact absurd (hf.symm.trans (h.trans hs)) (by decide)
  · exact h
  · exact absurd (h.symm.trans hs) (by decide)

/-- Where a change of presence makes an ABSENT slot PRESENT. -/
theorem changePresence_of_present (f : LinkSlot → LinkSlot)
    (hs : (getLink slot s).effective = .absent) (hf : (f (getLink slot s)).effective = .present) :
    changePresence slot f s = enterPresent slot (modLink slot f s) := by
  rcases changePresence_cases slot f s with ⟨h, -⟩ | ⟨h, -, -⟩ | ⟨-, -, h⟩
  · exact absurd (hf.symm.trans (h.trans hs)) (by decide)
  · exact absurd (h.symm.trans hs) (by decide)
  · exact h

theorem changePresence_of_same (f : LinkSlot → LinkSlot)
    (h : (f (getLink slot s)).effective = (getLink slot s).effective) :
    changePresence slot f s = modLink slot f s := by
  rcases changePresence_cases slot f s with ⟨-, hs⟩ | ⟨h1, h2, -⟩ | ⟨h1, h2, -⟩
  · exact hs
  · exact absurd (h2.symm.trans (h.trans h1)) (by decide)
  · exact absurd (h2.symm.trans (h.trans h1)) (by decide)

/-! ### FORCE-PRESENCE (R160) -/

theorem forcePresence_of_bad {a : ForceArgs} (h : 95 < a.index.toNat ∨ 3 < a.mode.toNat) :
    forcePresence a s = respond (bare .badArgument) s := by
  unfold forcePresence
  rcases h with h | h
  · rw [slotOf_of_gt h]
  · rw [presenceModeOf_of_gt _ h]
    cases slotOf a.index <;> rfl

theorem forcePresence_of_named {a : ForceArgs} {mode : ForceMode} (hk : slotOf a.index = some slot)
    (hm : presenceModeOf a.mode = some mode) :
    forcePresence a s =
      respond (presenceResponse slot (changePresence slot (LinkSlot.applyForce mode) s))
        (changePresence slot (LinkSlot.applyForce mode) s) := by
  rw [forcePresence, hk, hm]

/-- A mode sets the force alone. -/
theorem applyForce_eq (mode : ForceMode) (l : LinkSlot) :
    l.applyForce mode = { l with force := (l.applyForce mode).force } := by
  cases mode <;> rfl

theorem force_applyForce (b : Byte) (l : LinkSlot) :
    (l.applyForce (if b = 0 then .present else if b = 1 then .absent
      else if b = 2 then .release else .keep)).force =
    (if b = 0 then some .present else if b = 1 then some .absent
      else if b = 2 then none else l.force) := by
  split_ifs <;> rfl

end

/-- Settles O36: the slot's link is the old one with the force of the mode, but for its window; the
rest is what the entry actions do. -/
theorem forcePresenceSetsTheForce : Obligations.ForcePresenceSetsTheForce := by
  intro a s hs
  have hexec : exec (.forcePresence (.fields a)) s = .next (forcePresence a (endTransaction s)) :=
    manage_of_fields a forcePresence hs
  refine ⟨fun hbad => by rw [hexec, forcePresence_of_bad hbad, respond_endTransaction],
    fun slot hslot hmode => ?_⟩
  rw [forcePresence_of_named (slotOf_of_eq hslot) (presenceModeOf_of_le _ hmode)] at hexec
  refine ⟨_, hexec, ?_⟩
  have hforce := force_applyForce a.mode (getLink slot s)
  generalize (if a.mode = 0 then ForceMode.present else if a.mode = 1 then .absent
      else if a.mode = 2 then .release else .keep) = mode at hforce
  have hold : (getLink slot (endTransaction s)).applyForce mode =
    { getLink slot s with force := ((getLink slot s).applyForce mode).force } := applyForce_eq ..
  obtain ⟨w, hw⟩ := getLink_changePresence_self slot (LinkSlot.applyForce mode) (endTransaction s)
  have heff := effective_changePresence slot (LinkSlot.applyForce mode) (endTransaction s)
  have hlink : getLink slot (changePresence slot (LinkSlot.applyForce mode) (endTransaction s)) =
      { getLink slot s with
        window := w, force := ((getLink slot s).applyForce mode).force } := by
    rw [hw, hold]
  refine ⟨(congrArg (·.force) hlink).trans hforce, congrArg (·.detected) hlink,
    congrArg (·.goodRun) hlink, congrArg (·.missRun) hlink, congrArg (·.drive) hlink, fun x hx => getLink_changePresence_of_ne hx _ _, rfl,
    fun hp ha => ?_, fun ha hp => ?_, fun hsame => ?_⟩
  · have hc := changePresence_of_absent (s := endTransaction s) _ hp (heff.symm.trans ha)
    rw [hc]
    refine ⟨enterAbsent_spec slot (modLink slot (LinkSlot.applyForce mode) (endTransaction s)),
      fun m hm => ?_⟩
    refine (congrArg LinkSlot.window (getLink_enterAbsent slot slot _)).trans ?_
    rw [if_pos rfl, getLink_modLink, if_pos rfl, hold]
    show ((getLink slot s).window.abandon absentBlock) = _
    rw [hm]
    rfl
  · rw [changePresence_of_present (s := endTransaction s) _ ha (heff.symm.trans hp)]
    exact enterPresent_spec slot (modLink slot (LinkSlot.applyForce mode) (endTransaction s))
  · rw [changePresence_of_same (s := endTransaction s) _ (heff.symm.trans hsame)]
    rfl

end Sys2Proof.Machine
end

section
/-! PROOF. The commands that only read (R27, R46, R114, R136, R170), the flags and the alert
(R168, R169). -/

namespace Sys2Proof.Machine

open Sys2Proof

section

variable {s : State}

/-! ### The commands that only read -/

/-- A command that only answers changes the response alone. -/
theorem manage_respond {α : Type} (a : α) (g : α → State → Response) (h : TakesFrames s) :
    manage (.fields a) (fun a s => respond (g a s) s) s =
      .next (replied (g a (endTransaction s)) s) :=
  (manage_of_fields a _ h).trans rfl

theorem targetReadResponse_of_eq {b : Byte} {u : Target} (h : b.toNat = u.val) :
    targetReadResponse b s = okWith (.target s.now (getAdapt u s).settle (getAdapt u s).postscaler
      (getAdapt u s).divergence (getAdapt u s).hold (getAdapt u s).frozen
      (getAdapt u s).lastResidual) := by
  rw [targetReadResponse, show targetOf b = some u from below_eq_some.2 h]

theorem targetReadResponse_of_gt {b : Byte} (h : 111 < b.toNat) :
    targetReadResponse b s = bare .badArgument := by
  rw [targetReadResponse, show targetOf b = none from below_eq_none.2 h]

theorem stationReadResponse_of_eq {b : Byte} {k : Station} (h : b.toNat = k.val) :
    stationReadResponse b s = okWith (.station s.now (getStation k s).effective
      (getStation k s).detected (getStation k s).force (getStation k s).lastM (getStation k s).y2
      (getStation k s).shockHold (getAdapt (stationTarget k) s).lastResidual) := by
  rw [stationReadResponse, stationOf_of_eq h]

theorem stationReadResponse_of_gt {b : Byte} (h : 15 < b.toNat) :
    stationReadResponse b s = bare .badArgument := by
  rw [stationReadResponse, stationOf_of_gt h]

theorem report_eq (c : CacheSlot) : c.report = match c with
    | .empty => .empty
    | .filling id => .filling id
    | .filled id p n => .filled id p.length n := by
  cases c <;> rfl

/-! ### SOURCE-QUERY (R27) -/

theorem sourceQuery_of_badForm {a : SourceQueryArgs} (h : 1 < a.form.toNat) :
    sourceQueryResponse a s = bare .badArgument := by
  unfold sourceQueryResponse
  split
  · next h0 => omega
  · next h1 => omega
  · rfl

theorem sourceQuery_of_badNumber {a : SourceQueryArgs} (hf : a.form = 0)
    (h : 127 < a.number.toNat) : sourceQueryResponse a s = bare .badArgument := by
  unfold sourceQueryResponse
  rw [hf, show recordOf a.number = none from below_eq_none.2 h]
  rfl

theorem sourceQuery_of_number {a : SourceQueryArgs} {r : RecordNo} (hf : a.form = 0)
    (h : a.number.toNat = r.val) : sourceQueryResponse a s =
      if isLive (getRecord r s) then okWith (.liveRecord s.now (recordReport r s))
      else okWith (.freeRecord s.now r) := by
  unfold sourceQueryResponse
  rw [hf, show recordOf a.number = some r from below_eq_some.2 h]
  rfl

theorem sourceQuery_of_badName {a : SourceQueryArgs} (hf : a.form = 1)
    (h : 95 < a.slot.toNat ∨ 7 < a.tag.toNat) : sourceQueryResponse a s = bare .badArgument := by
  unfold sourceQueryResponse
  rw [hf]
  rcases h with h | h
  · rw [slotOf_of_gt h]
    rfl
  · rw [show tagOf a.tag = none from below_eq_none.2 h]
    cases slotOf a.slot <;> rfl

theorem sourceQuery_of_name {a : SourceQueryArgs} {slot : Slot} {tag : Tag} (hf : a.form = 1)
    (hslot : a.slot.toNat = slot.val) (htag : a.tag.toNat = tag.val) :
    sourceQueryResponse a s = match findTag slot tag s with
      | some r => okWith (.liveRecord s.now (recordReport r s))
      | none => bare .noSuchRecord := by
  unfold sourceQueryResponse
  rw [hf, slotOf_of_eq hslot, show tagOf a.tag = some tag from below_eq_some.2 htag] <;> rfl

end

/-- Settles O56: each answer is a function of the state before, which stands. -/
theorem readCommandsAnswerTheStateAsItStands :
    Obligations.ReadCommandsAnswerTheStateAsItStands := by
  refine ⟨fun s hs => ?_, fun a s hs hlaw => ?_⟩
  · have htarget : ∀ b, exec (.targetRead (.fields b)) s = .next
        (replied (targetReadResponse b (endTransaction s)) s) :=
      fun b => manage_respond b targetReadResponse hs
    have hstation : ∀ b, exec (.stationRead (.fields b)) s = .next
        (replied (stationReadResponse b (endTransaction s)) s) :=
      fun b => manage_respond b stationReadResponse hs
    refine ⟨manage_respond () (fun _ s => okWith (.identity partCode capacities s.now s.port.cause))
        hs, fun b hb => ?_, fun b u hu => ?_, fun b hb => ?_, fun b k hk => ?_,
      cacheReport (endTransaction s),
      manage_respond () (fun _ s => okWith (.cache (cacheReport s))) hs,
      rfl, rfl, rfl, rfl, rfl, rfl, fun c => ?_⟩
    · rw [htarget, targetReadResponse_of_gt hb]
    · rw [htarget, targetReadResponse_of_eq hu]
      rfl
    · rw [hstation, stationReadResponse_of_gt hb]
    · rw [hstation, stationReadResponse_of_eq hk]
      rfl
    · exact (tget_map ..).trans (report_eq _)
  · intro answers live
    have hanswer : ∀ {r : Response}, sourceQueryResponse a (endTransaction s) = r → answers r :=
      fun h => (manage_respond a sourceQueryResponse hs).trans (by rw [h])
    refine ⟨fun h => hanswer (sourceQuery_of_badForm h),
      fun hf h => hanswer (sourceQuery_of_badNumber hf h), fun r hf h => ⟨fun hfree => ?_,
        fun hlive => ?_⟩,
      fun hf h => hanswer (sourceQuery_of_badName hf h), fun slot tag hf hslot htag => ⟨fun hn => ?_,
        fun r hr => ?_⟩⟩
    · exact hanswer ((sourceQuery_of_number hf h).trans
        (if_neg fun hl => (isLive_iff _).1 hl hfree))
    · exact hanswer ((sourceQuery_of_number hf h).trans (if_pos ((isLive_iff _).2 hlive)))
    · refine hanswer ((sourceQuery_of_name hf hslot htag).trans ?_)
      rw [show findTag slot tag (endTransaction s) = none from findTag_eq_none.2 hn]
    · refine hanswer ((sourceQuery_of_name hf hslot htag).trans ?_)
      rw [show findTag slot tag (endTransaction s) = some r from findTag_of_names hlaw hr]
      rfl

/-! ### The flags (R168, R169) -/

section

variable {s : State}

theorem getLsbD_bit (f : Flag) (j : Nat) : f.bit.getLsbD j = decide (j = f.index) := by
  have hlt : f.index < 12 := by cases f <;> decide
  rw [Flag.bit, BitVec.getLsbD_shiftLeft, BitVec.getLsbD_one]
  grind

theorem getLsbD_when (f : Flag) (b : Bool) (j : Nat) :
    (f.when b).getLsbD j = (b && decide (j = f.index)) := by
  cases b
  · exact BitVec.getLsbD_zero
  · exact getLsbD_bit f j

theorem getLsbD_latch (f : Flag) (s : State) (j : Nat) :
    (latch f s).port.latched.getLsbD j = (s.port.latched.getLsbD j || decide (j = f.index)) := by
  show (s.port.latched ||| f.bit).getLsbD j = _
  rw [BitVec.getLsbD_or, getLsbD_bit]

theorem anyFrozen_eq : anyFrozen s = (List.finRange 112).any fun u => (getAdapt u s).frozen := by
  rw [anyFrozen, toList_eq_map_tget, List.any_map]
  rfl

theorem anySuppressed_eq :
    anySuppressed s = (List.finRange 96).any fun slot => (getSuppression slot s).state != .clear := by
  rw [anySuppressed, toList_eq_map_tget, List.any_map]
  congr 1
  funext slot
  show decide ((getSuppression slot s).state ≠ .clear) = _
  cases (getSuppression slot s).state <;> rfl

/-- The bits that READ-FLAGS returns. -/
theorem getLsbD_flagsNow (s : State) (i : Nat) : (flagsNow s).getLsbD i =
    (s.port.latched.getLsbD i ||
      (i == 6 && (List.finRange 112).any fun u : Target => (getAdapt u s).frozen) ||
      (i == 7 && (List.finRange 96).any fun slot : Slot =>
        (getSuppression slot s).state != .clear) ||
      (i == 11 && s.cache.port == .lent)) := by
  have hlent : portLent s = (s.cache.port == .lent) := by
    unfold portLent
    cases s.cache.port <;> rfl
  rw [flagsNow, liveFlags, BitVec.getLsbD_or, BitVec.getLsbD_or, BitVec.getLsbD_or, getLsbD_when,
    getLsbD_when, getLsbD_when, anyFrozen_eq, anySuppressed_eq, hlent, ← Bool.or_assoc,
    ← Bool.or_assoc, Bool.and_comm _ (decide (i = _)), Bool.and_comm _ (decide (i = _)),
    Bool.and_comm _ (decide (i = _))]
  rfl

theorem ne_zero_iff_getLsbD {n : Nat} (v : BitVec n) :
    v ≠ 0 ↔ ∃ i : Fin n, v.getLsbD i.val = true := by
  constructor
  · intro h
    by_contra hn
    exact h (BitVec.eq_of_getLsbD_eq fun i hi => by
      rw [Bool.eq_false_iff.2 fun hi' => hn ⟨⟨i, hi⟩, hi'⟩]
      exact BitVec.getLsbD_zero.symm)
  · rintro ⟨i, hi⟩ rfl
    exact absurd (hi.symm.trans BitVec.getLsbD_zero) (by decide)

theorem alertAsserted_iff : alertAsserted s = true ↔
    ∃ i : Fin 12, (flagsNow s).getLsbD i.val = true ∧ s.port.mask.getLsbD i.val = true := by
  rw [alertAsserted, decide_eq_true_eq, ne_zero_iff_getLsbD]
  simp only [BitVec.getLsbD_and, Bool.and_eq_true]

end

/-- Settles O57. -/
theorem readFlagsReturnsAndClears : Obligations.ReadFlagsReturnsAndClears := by
  unfold Obligations.ReadFlagsReturnsAndClears
  intro shown
  have hshown : ∀ s i, (flagsNow s).getLsbD i.val = shown s i :=
    fun s i => getLsbD_flagsNow s i.val
  refine ⟨fun s hs => ⟨flagsNow s, manage_of_fields () (fun _ => readFlags) hs, hshown s⟩,
    fun s => ?_, fun s => decide_eq_true_iff, fun i f hf => ?_, fun s h hs => ?_⟩
  · rw [alertAsserted_iff]
    exact exists_congr fun i => by rw [hshown]
  · have hindex : f.index = i := by
      rcases i with _ | _ | _ | _ | _ | _ | _ | _ | _ | _ | _ | _ | i <;>
        (first | (obtain rfl := Option.some.inj hf; rfl) | cases hf)
    subst hindex
    exact ⟨getLsbD_bit f, getLsbD_latch f⟩
  · have hmask : h.setWidth 12 = h.extractLsb' 0 12 := by
      ext i hi
      simp
    rw [← hmask]
    exact manage_of_fields h setAlertMask hs

end Sys2Proof.Machine
end

section
/-! PROOF. Frames of the management port (R164, R165, R172), and the resets (R171). -/

namespace Sys2Proof.Machine

open Sys2Proof

section

variable {s : State} {c : Instr}

/-! ### Frames (R165) -/

/-- What a part does that a line or its supply holds. -/
theorem onPart_of_held (held f : State → State)
    (hs : s.coldReset = some .resetLine ∨ s.coldReset = some .powerUp) :
    onPart held f s = .next (held s) := by
  rcases hs with hs | hs <;> rw [onPart, hs]

/-- A command that comes as a management frame with this payload: what comes before it leaves a
state in which nothing has to come before it. -/
def PortFrame {α : Type} (c : Instr) (p : Payload α) : Prop :=
  ∃ (before : State → State) (f : α → State → State),
    (∀ s, exec c s = manageAfter before p f s) ∧ ∀ s, Ready s → before s = s

theorem portFrame_of_manage {α : Type} {p : Payload α} {f : α → State → State}
    (h : ∀ s, exec c s = manage p f s) : PortFrame c p :=
  ⟨takeMoment, f, h, fun _ hs => takeMoment_of_ready hs.2.1 hs.2.2⟩

theorem portFrame_drop (p : Payload Half) : PortFrame (.drop p) p :=
  ⟨beforeDrop p, _, fun _ => rfl, fun _ hs => beforeDrop_of_none p hs.2.1 (.inl hs.2.2)⟩

theorem PortFrame.exec_of_ready {α : Type} {p : Payload α} (h : PortFrame c p) (hs : Ready s) :
    ∃ f : α → State → State, exec c s = .next (takeFrame p f s) := by
  obtain ⟨before, f, hc, hb⟩ := h
  exact ⟨f, (hc s).trans (manageAfter_of_running before p f hs.1 (hb s hs))⟩

theorem PortFrame.exec_of_refused {α : Type} {p : Payload α} (h : PortFrame c p) (hs : Ready s)
    (hr : frameRefused s = true) : exec c s = .next (endTransaction s) := by
  obtain ⟨f, hf⟩ := h.exec_of_ready hs
  rw [hf]
  simp [takeFrame, hr]

theorem PortFrame.exec_of_wrongLength {α : Type} (h : PortFrame c (.wrongLength : Payload α))
    (hs : TakesFrames s) : exec c s = .next (replied (bare .badArgument) s) := by
  obtain ⟨f, hf⟩ := h.exec_of_ready hs.1
  rw [hf]
  simp only [takeFrame, hs.2]
  rfl

theorem PortFrame.exec_of_held {α : Type} {p : Payload α} (h : PortFrame c p)
    (hs : s.coldReset = some .resetLine ∨ s.coldReset = some .powerUp) :
    exec c s = .next (endTransaction s) := by
  obtain ⟨before, f, hc, -⟩ := h
  rw [hc, manageAfter, onPart_of_held _ _ hs]

/-- A command that has a frame is one of the port. -/
theorem portFrame_of_encodeFrame {x : List Byte} (h : encodeFrame c = some x) :
    ∃ (α : Type) (p : Payload α), PortFrame c p := by
  have hparts : (frameParts c).isSome = true := by
    rw [encodeFrame] at h
    cases hp : frameParts c with
    | none => rw [hp] at h; cases h
    | some _ => rfl
  cases c with
  | drop p => exact ⟨_, p, portFrame_drop p⟩
  | identify p | readFlags p | setAlertMask p | settingWrite p | settingRead p | listWrite p
  | listRead p | capture p | swapRequest p | swapCancel p | sourceQuery p | sourceList p
  | targetRead p | stationRead p | cacheRead p | preload p | retry p | lend p | reclaim p
  | forcePresence p | forceLock p | suppressClear p | holdShorten p | restartWarm p
  | restartCold p => exact ⟨_, p, portFrame_of_manage fun _ => rfl⟩
  | _ => exact absurd hparts Bool.false_ne_true

/-- A frame that is shorter than it says, with a known code, has a wrong length. -/
theorem portFrame_shortFrame : ∀ {code : Byte}, knownCode code = true →
    ∃ α : Type, PortFrame (shortFrame code) (.wrongLength : Payload α) := by
  intro code h
  have hbound : 1 ≤ code.toNat ∧ code.toNat ≤ 0x1B ∧ code.toNat ≠ 0x12 := by
    simpa [knownCode, and_assoc] using h
  unfold shortFrame
  split
  case h_18 => exact ⟨_, portFrame_drop _⟩
  case h_27 =>
    exfalso
    generalize code.toNat = n at *
    grind
  all_goals exact ⟨_, portFrame_of_manage fun _ => rfl⟩

theorem unknownCommand_of_unknown {code : Byte} (hk : knownCode code = false) (s : State) :
    unknownCommand code s = if frameRefused s then endTransaction s
      else replied (bare .unknownCommand) s := by
  rw [unknownCommand, hk]
  rfl

theorem exec_unknownCommand_of_ready {code : Byte} (hk : knownCode code = false) (hs : Ready s) :
    exec (.unknownCommand code) s = .next (if frameRefused s then endTransaction s
      else replied (bare .unknownCommand) s) := by
  show execUnknownCommand code s = _
  rw [execUnknownCommand, onPart_of_running _ _ hs.1, takeMoment_of_ready hs.2.1 hs.2.2,
    unknownCommand_of_unknown hk]

theorem frameRefused_iff : frameRefused s = true ↔
    ((∃ t, s.port.transaction = some t ∧ t.refused = true) ∨
      (s.port.transaction = none ∧ (s.port.cutOff = true ∨ s.port.executing ≠ none))) := by
  unfold frameRefused
  cases s.port.transaction with
  | none => simp [Option.isSome_iff_ne_none]
  | some t => simp

end

/-- Settles O55. -/
theorem transactionsAndFramesAreJudgedByThePort :
    Obligations.TransactionsAndFramesAreJudgedByThePort := by
  refine ⟨fun s hs => ?_, fun s => frameRefused_iff, fun s i hs hr hi => ?_,
    fun s code hs => ⟨fun hk => ?_, fun hk => ?_⟩⟩
  · show execTransactionStart s = _
    rw [execTransactionStart, onPart_of_running _ _ hs.1, takeMoment_of_ready hs.2.1 hs.2.2,
      transactionStart, clockedOut]
    cases s.port.executing <;> rfl
  · rcases hi with ⟨x, hx⟩ | ⟨code, hk, rfl⟩ | ⟨code, hk, rfl⟩
    · obtain ⟨_, _, hp⟩ := portFrame_of_encodeFrame hx
      exact hp.exec_of_refused hs hr
    · rw [exec_unknownCommand_of_ready hk hs, if_pos hr]
      rfl
    · obtain ⟨_, hp⟩ := portFrame_shortFrame hk
      exact hp.exec_of_refused hs hr
  · obtain ⟨_, hp⟩ := portFrame_shortFrame hk
    exact hp.exec_of_wrongLength hs
  · rw [exec_unknownCommand_of_ready hk hs.1, if_neg (Bool.eq_false_iff.1 hs.2)]

/-! ### Warm resets (R171, R172) -/

section

variable {s : State}

theorem takeBoundary_of_quiet (h : s.boundary = .quiet) : takeBoundary s = s := by
  rw [takeBoundary, h]

theorem warm_cacheSlot_eq (c : CacheSlot) : c.warm = match c with
    | .filled id p _ => .filled id p 0
    | _ => .empty := by
  cases c <;> rfl

/-- What a warm reset leaves of a part that has taken its boundary, with a table of its own for
every piece. -/
theorem warmReset_of_quiet (cause : ResetCause) (h : s.boundary = .quiet) :
    warmReset cause s = { s with
      table := emptyTable
      cache := s.cache.warm
      store := { s.store with swapPending := false }
      prediction := emptyPrediction
      adaptation :=
        ⟨s.adaptation.records.map (AdaptRecord.warm s.settings.global.settle), [], none, false⟩
      stations := s.stations.map (StationState.warm (frameOf s.now))
      suppression := Vector.replicate 96 clearSuppression
      links := { s.links with slots := s.links.slots.map LinkSlot.warm }
      port := s.port.warm cause } := by
  rw [warmReset, takeBoundary_of_quiet h]

theorem getLink_warmReset (cause : ResetCause) (h : s.boundary = .quiet) (x : Slot) :
    getLink x (warmReset cause s) = (getLink x s).warm := by
  rw [warmReset_of_quiet cause h]
  exact tget_map ..

theorem abandon_of_evaluating {w : Window} {m : Option Answer} {b : Block}
    (h : w = .feedPhase m .evaluating) : w.abandon b = .feedPhase m (.ready b) := by
  rw [h]
  rfl

theorem abandon_of_not_evaluating {w : Window} {b : Block}
    (h : ∀ m, w ≠ .feedPhase m .evaluating) : w.abandon b = w := by
  unfold Window.abandon
  split
  · next m => exact absurd rfl (h m)
  · rfl

end

/-- Settles O60: a warm reset of either cause leaves the same part; only the management port tells
them apart. -/
theorem warmResetsKeepModelAndPresence : Obligations.WarmResetsKeepModelAndPresence := by
  intro s c hb hc
  have hexec : ∃ p cause, exec c s = .next (warmReset cause { s with port := p }) ∧
      p.mask = s.port.mask ∧ p.executing = s.port.executing ∧
      (c = .warmLine → cause = .warmLine ∧ p = s.port) ∧
      (c ≠ .warmLine → cause = .restartWarm ∧ p.held = okResponse) := by
    rcases hc with ⟨rfl, hs⟩ | ⟨rfl, hs⟩
    · exact ⟨s.port, .warmLine, afterEvents_of_ready _ hs, rfl, rfl, fun _ => ⟨rfl, rfl⟩,
        fun h => absurd rfl h⟩
    · exact ⟨(respond okResponse (endTransaction s)).port, .restartWarm,
        manage_of_fields () _ hs, rfl, rfl, fun h => (nomatch h), fun _ => ⟨rfl, rfl⟩⟩
  obtain ⟨p, cause, hexec, hmask, hexecuting, hline, hrestart⟩ := hexec
  have hlink := getLink_warmReset (s := { s with port := p }) cause hb
  have hwarm := warmReset_of_quiet (s := { s with port := p }) cause hb
  refine ⟨_, hexec, ?_⟩
  rw [hwarm] at hlink ⊢
  refine ⟨rfl, rfl, rfl, fun r => ?_, fun x => tget_replicate .., fun n => ?_, rfl, rfl, rfl,
    fun id => tget_replicate .., ?_, rfl, rfl, fun u => ⟨tget_replicate .., tget_map ..⟩,
    fun k => tget_map .., fun x => ?_, fun x hx hline' => ?_, rfl, hmask, rfl, fun h => ?_,
    fun h => ?_⟩
  · exact congrArg SourceRecord.state (tget_replicate ..)
  · exact (tget_map ..).trans (warm_cacheSlot_eq _)
  · show s.cache.port.warm = _
    cases s.cache.port <;> rfl
  · have hsup : ∀ x : Slot, tget (Vector.replicate 96 clearSuppression) x = clearSuppression :=
      fun x => tget_replicate ..
    refine ⟨congrArg (·.state) (hsup x), congrArg (·.hold) (hsup x),
      congrArg (·.clearRequested) (hsup x), congrArg (·.detected) (hlink x),
      congrArg (·.force) (hlink x), congrArg (·.goodRun) (hlink x),
      congrArg (·.missRun) (hlink x), congrArg (·.sent) (hlink x), congrArg (·.drive) (hlink x),
      fun m hm => (congrArg (·.window) (hlink x)).trans (abandon_of_evaluating hm),
      fun hm => (congrArg (·.window) (hlink x)).trans (abandon_of_not_evaluating hm)⟩
  · show p.transaction.map _ = _
    rw [(hline hline').2, hx]
    rfl
  · obtain ⟨rfl, rfl⟩ := hline h
    exact ⟨rfl, rfl⟩
  · obtain ⟨rfl, hheld⟩ := hrestart h
    refine ⟨rfl, fun hnone => ?_⟩
    show heldAfterWarm p = _
    rw [heldAfterWarm, hexecuting, hnone]
    exact hheld

/-! ### Cold resets (R171, R172) -/

section

variable {s : State} {c : Instr}

/-- A held part passes over what is neither a reset nor one of its port's transactions. -/
theorem exec_of_held (h1 : c ≠ .powerUp) (h2 : c ≠ .resetLine) (h3 : c ≠ .coldResetEnd)
    (hs : s.coldReset = some .resetLine ∨ s.coldReset = some .powerUp) :
    exec c s = .next s ∨ exec c s = .next (endTransaction s) ∨
      exec c s = .next (untakenStart s) := by
  obtain ⟨held, f, hc, hheld⟩ := exec_eq_onPart c h1 h2 h3
  rw [hc, onPart_of_held _ _ hs]
  rcases hheld with h | h | h <;> simp only [h, true_or, or_true]

/-- An event of a row link is one of a running part. -/
theorem exec_of_windowOf {slot : Slot} (h : c.windowOf = some slot) :
    ∃ f, ∀ s, exec c s = running f s := by
  cases c with
  | notice x m | amend x m | withdraw x m | close x m n | status x m | malformedMessage x
  | upstreamPhaseEnd x | feed x => exact ⟨_, fun _ => rfl⟩
  | _ => cases h

theorem frameRefused_of_noTransaction (h : s.port.transaction = none)
    (he : s.port.executing = none) : frameRefused s = s.port.cutOff := by
  rw [frameRefused, h, he]
  exact Bool.or_false _

/-- While RESTART COLD's reset stands, a command does what it does once it has ended. -/
theorem exec_of_restartCold (c : Instr) (cutOff : Bool) (q : List Instr) :
    exec c (State.cold .restartCold cutOff q) =
      exec c (endColdReset (State.cold .restartCold cutOff q)) := by
  by_cases h1 : c = .powerUp
  · subst h1
    rfl
  by_cases h2 : c = .resetLine
  · subst h2
    rfl
  by_cases h3 : c = .coldResetEnd
  · subst h3
    rfl
  obtain ⟨held, f, hc, -⟩ := exec_eq_onPart c h1 h2 h3
  rw [hc, hc]
  rfl

end

/-- Settles O59: every piece of a part that a cold reset holds stands at its default; a held part
lets commands pass but for its port's transactions. -/
theorem coldResetsReturnEveryBlockToPowerUp :
    Obligations.ColdResetsReturnEveryBlockToPowerUp := by
  refine ⟨⟨fun s => ⟨rfl, rfl⟩, fun s hs => manage_of_fields () _ hs, fun cause cutOff q => ?_⟩,
    ⟨fun cause cutOff q => ⟨_, rfl, rfl, ?_, rfl, fun slot => ?_, rfl⟩, fun s hs => ?_,
      fun c cutOff q => ⟨_, rfl, exec_of_restartCold c cutOff q⟩⟩,
    fun c s hs h1 h2 h3 => ?_⟩
  · intro t
    have hadapt : ∀ u, getAdapt u t = coldAdapt := fun u => tget_replicate ..
    have hstation : ∀ k, getStation k t = coldStation := fun k => tget_replicate ..
    have hlink : ∀ x, getLink x t = coldLinkSlot := fun x => tget_replicate ..
    have hslot : ∀ x : Slot, tget t.settings.slots x = defaultSlot := fun x => tget_replicate ..
    refine ⟨rfl, frameRefused_of_noTransaction rfl rfl, rfl, rfl, rfl, rfl, rfl, rfl,
      fun r => congrArg (·.state) (tget_replicate freeRecord r), fun x => tget_replicate ..,
      fun c => tget_replicate .., rfl, rfl, fun id => tget_replicate .., rfl, rfl, rfl, rfl, rfl,
      fun n x => ?_, rfl, rfl, fun u => ⟨tget_replicate .., ?_⟩, rfl, rfl, fun k => ?_, fun x => ?_,
      rfl, fun u => tget_replicate .., fun k => tget_replicate ..⟩
    · cases n <;> exact ⟨tget_replicate .., rfl⟩
    · rw [hadapt]
      exact ⟨rfl, rfl, rfl, rfl, rfl, rfl⟩
    · rw [hstation]
      exact ⟨rfl, rfl, rfl, rfl, rfl, rfl, rfl, rfl, rfl, rfl, rfl, rfl, rfl⟩
    · rw [show getSuppression x t = clearSuppression from tget_replicate .., hlink, hslot]
      exact ⟨rfl, rfl, rfl, rfl, rfl, rfl, rfl, rfl, rfl, rfl, rfl, rfl, rfl, rfl⟩
  · exact frameRefused_of_noTransaction rfl rfl
  · have hlink : getLink slot (endColdReset (State.cold cause cutOff q)) =
        openWindow coldLinkSlot :=
      (tget_map ..).trans (congrArg openWindow (tget_replicate ..))
    refine ⟨congrArg (·.window) hlink, ?_, congrArg (·.drive) hlink⟩
    exact congrArg LinkSlot.effective hlink
  · show Host.Outcome.next (if s.coldReset.isSome then _ else _) = _
    rw [show s.coldReset = none from hs]
    rfl
  · intro frame
    refine ⟨fun hframe => ?_, fun hc => ?_, fun hc => ?_, ?_⟩
    · rcases hframe with ⟨x, hx⟩ | ⟨code, hk, rfl⟩ | ⟨code, hk, rfl⟩
      · obtain ⟨_, _, hp⟩ := portFrame_of_encodeFrame hx
        exact hp.exec_of_held hs
      · show execUnknownCommand code s = _
        rw [execUnknownCommand, onPart_of_held _ _ hs, hk]
        rfl
      · obtain ⟨_, hp⟩ := portFrame_shortFrame hk
        exact hp.exec_of_held hs
    · subst hc
      show execTransactionStart s = _
      rw [execTransactionStart, onPart_of_held _ _ hs]
      rfl
    · rcases hc with ⟨slot, hslot⟩ | rfl | rfl
      · obtain ⟨f, hf⟩ := exec_of_windowOf hslot
        exact (hf s).trans (onPart_of_held _ _ hs)
      · show execChassisTimeAdvance s = _
        rw [execChassisTimeAdvance, running, onPart_of_held _ _ hs]
        rfl
      · show execWarmLine s = _
        rw [execWarmLine, afterEvents, running, onPart_of_held _ _ hs]
        rfl
    · rcases exec_of_held h2 h1 h3 hs with h | h | h
      · exact ⟨_, h, rfl⟩
      · exact ⟨_, h, rfl⟩
      · exact ⟨_, h, rfl⟩

end Sys2Proof.Machine
end

section
/-! PROOF. The settings: where a setting lives, what a write stores and what a read answers
(R167, R176). -/

namespace Sys2Proof.Machine

open Sys2Proof

section

variable {s : State} {a : SettingAddr} {v : SettingValue} {site : SettingSite}

/-! ### Where a setting lives -/

/-- The part of a record that a setting belongs to (R167). -/
inductive SettingPart where
  | global
  | common
  | slot
  | station
  deriving DecidableEq

/-- The part of each setting. -/
def SettingName.part : SettingName → SettingPart
  | .blanking | .theta | .settle | .divergenceHold | .stationLock | .stationUnlock | .shockHold
  | .presenceLock | .presenceUnlock | .divider => .global
  | .enable | .mu | .deadband | .gmax | .interval => .common
  | .feedLimit | .tap1 | .tap2 | .suppressionMode | .shockStation => .slot
  | .sense | .scale | .threshold | .coefficient => .station

/-- A setting of a record lives in its part, where the record has it. -/
theorem siteOf_eq (r : RecordName) (n : SettingName) : siteOf r n = match n.part, r with
    | .global, .global => some (.global n)
    | .common, .target t => some (.target t n)
    | .slot, .target t => (slotOfTarget t).map fun x => .slot x n
    | .station, .target t => (stationOfTarget t).map fun k => .station k n
    | _, _ => none := by
  cases n <;> cases r <;> rfl

/-- The parts in the order of the settings table. -/
theorem partOf_name : ∀ b : Byte, (settingOf b).map SettingName.part =
    if b.toNat < 10 then some .global else if b.toNat < 15 then some .common
    else if b.toNat < 20 then some .slot else if b.toNat < 24 then some .station else none := by
  decide

theorem settingSite_of_global (h : a.record = 0xFF) :
    settingSite a = (settingOf a.name).bind (siteOf .global) := by
  rw [settingSite, settingRecordOf, if_pos h]
  cases settingOf a.name <;> rfl

theorem settingSite_of_target {u : Target} (h : a.record.toNat = u.val) :
    settingSite a = (settingOf a.name).bind (siteOf (.target u)) := by
  have hne : a.record ≠ 0xFF := by
    intro he
    rw [he] at h
    have := u.isLt
    simp at h
    omega
  have hu : targetOf a.record = some u := below_eq_some.2 h
  rw [settingSite, settingRecordOf, if_neg hne, hu]
  cases settingOf a.name <;> rfl

theorem settingSite_of_neither (h : 111 < a.record.toNat) (hne : a.record ≠ 0xFF) :
    settingSite a = none := by
  have hu : targetOf a.record = none := below_eq_none.2 h
  rw [settingSite, settingRecordOf, if_neg hne, hu]
  rfl

/-- Without the part there is no such setting. -/
theorem bind_siteOf_eq_none {r : RecordName}
    (h : ∀ n, settingOf a.name = some n → siteOf r n = none) :
    (settingOf a.name).bind (siteOf r) = none := by
  cases hn : settingOf a.name with
  | none => rfl
  | some n => exact h n hn

theorem slotOfTarget_of_ge {u : Target} (h : 95 < u.val) : slotOfTarget u = none :=
  below_eq_none.2 h

theorem stationOfTarget_of_lt {u : Target} (h : u.val < 96) : stationOfTarget u = none :=
  if_neg (by omega)

theorem slotOfTarget_of_eq {u : Target} {slot : Slot} (h : u.val = slot.val) :
    slotOfTarget u = some slot :=
  below_eq_some.2 h

theorem stationOfTarget_of_eq {u : Target} {k : Station} (h : u.val = 96 + k.val) :
    stationOfTarget u = some k :=
  (if_pos (by omega)).trans (below_eq_some.2 (by omega))

/-- The record bytes and name bytes that no setting has. -/
theorem settingSite_eq_none (h : (111 < a.record.toNat ∧ a.record ≠ 0xFF) ∨ 23 < a.name.toNat ∨
      (a.name.toNat < 10 ∧ a.record ≠ 0xFF) ∨ (9 < a.name.toNat ∧ a.record = 0xFF) ∨
      (14 < a.name.toNat ∧ a.name.toNat < 20 ∧ 95 < a.record.toNat) ∨
      (19 < a.name.toNat ∧ a.record.toNat < 96)) : settingSite a = none := by
  have hpart : ∀ n, settingOf a.name = some n → some n.part =
      if a.name.toNat < 10 then some .global else if a.name.toNat < 15 then some .common
      else if a.name.toNat < 20 then some .slot else if a.name.toNat < 24 then some .station
      else none := fun n hn => by rw [← partOf_name, hn]; rfl
  by_cases hglobal : a.record = 0xFF
  · rw [settingSite_of_global hglobal]
    refine bind_siteOf_eq_none fun n hn => ?_
    have hge : ¬ a.name.toNat < 10 := by simp_all; omega
    have hp := hpart n hn
    rw [if_neg hge] at hp
    rw [siteOf_eq]
    split_ifs at hp <;> rw [Option.some.inj hp]
  by_cases htarget : 111 < a.record.toNat
  · exact settingSite_of_neither htarget hglobal
  rw [settingSite_of_target (u := ⟨a.record.toNat, by omega⟩) rfl]
  refine bind_siteOf_eq_none fun n hn => ?_
  have hp := hpart n hn
  rw [siteOf_eq]
  split_ifs at hp with h1 h2 h3 h4
  · rw [Option.some.inj hp]
  · exfalso
    simp_all
    omega
  · rw [Option.some.inj hp]
    dsimp only
    rw [slotOfTarget_of_ge (by simp_all; omega)]
    rfl
  · rw [Option.some.inj hp]
    dsimp only
    rw [stationOfTarget_of_lt (by simp_all; omega)]
    rfl

/-! ### What a write stores and a read answers -/

theorem exec_settingWrite (hs : TakesFrames s) :
    exec (.settingWrite (.fields (a, v))) s = .next (settingWrite (a, v) (endTransaction s)) :=
  manage_of_fields (a, v) settingWrite hs

theorem exec_settingRead (hs : TakesFrames s) :
    exec (.settingRead (.fields a)) s = .next (settingRead a (endTransaction s)) :=
  manage_of_fields a settingRead hs

theorem exec_settingRead_of_none (hs : TakesFrames s) (h : settingSite a = none) :
    exec (.settingRead (.fields a)) s = .next (replied (bare .badArgument) s) := by
  rw [exec_settingRead hs, settingRead, h]
  rfl

theorem exec_settingRead_of_site (hs : TakesFrames s) (h : settingSite a = some site) :
    exec (.settingRead (.fields a)) s =
      .next (replied (okWith (.setting (s.settings.read site))) s) := by
  rw [exec_settingRead hs, settingRead, h]
  rfl

theorem exec_settingRead_of_value {w : SettingValue} (hs : TakesFrames s)
    (h : settingSite a = some site) (hw : s.settings.read site = w) :
    exec (.settingRead (.fields a)) s = .next (replied (okWith (.setting w)) s) := by
  rw [exec_settingRead_of_site hs h, hw]

theorem exec_settingWrite_of_noSite (hs : TakesFrames s) (h : settingSite a = none) :
    exec (.settingWrite (.fields (a, v))) s = .next (replied (bare .badArgument) s) := by
  rw [exec_settingWrite hs, settingWrite, h]
  rfl

theorem exec_settingWrite_of_refused (hs : TakesFrames s) (h : settingSite a = some site)
    (hv : s.settings.write site v = none) :
    exec (.settingWrite (.fields (a, v))) s = .next (replied (bare .badArgument) s) := by
  rw [exec_settingWrite hs, settingWrite, h]
  dsimp only
  rw [show (endTransaction s).settings.write site v = none from hv]
  rfl

theorem exec_settingWrite_of_stored {g : Settings} (hs : TakesFrames s)
    (h : settingSite a = some site) (hv : s.settings.write site v = some g) :
    exec (.settingWrite (.fields (a, v))) s =
      .next (storeSettings site g (endTransaction s)) := by
  rw [exec_settingWrite hs, settingWrite, h]
  dsimp only
  rw [show (endTransaction s).settings.write site v = some g from hv]

/-- A write is answered BAD-ARGUMENT, or it stores a table and answers what that table reads. -/
theorem exec_settingWrite_cases (hs : TakesFrames s) :
    exec (.settingWrite (.fields (a, v))) s = .next (replied (bare .badArgument) s) ∨
    ∃ site g, settingSite a = some site ∧
      exec (.settingWrite (.fields (a, v))) s = .next (storeSettings site g (endTransaction s)) := by
  cases hsite : settingSite a with
  | none => exact .inl (exec_settingWrite_of_noSite hs hsite)
  | some site =>
    cases hv : s.settings.write site v with
    | none => exact .inl (exec_settingWrite_of_refused hs hsite hv)
    | some g => exact .inr ⟨site, g, rfl, exec_settingWrite_of_stored hs hsite hv⟩

/-- The state after a stored write answers the read of the setting as it stands, also where the
frame of the read is refused. -/
theorem exec_settingRead_stored {g : Settings} (hs : Ready s) (h : settingSite a = some site) :
    exec (.settingRead (.fields a)) (storeSettings site g (endTransaction s)) =
      .next (storeSettings site g (endTransaction s)) := by
  have hready : Ready (storeSettings site g (endTransaction s)) := hs
  cases hr : frameRefused (storeSettings site g (endTransaction s)) with
  | true => exact manage_of_refused _ settingRead hready hr
  | false =>
    rw [exec_settingRead_of_site ⟨hready, hr⟩ h]
    rfl

/-! ### Common, slot and station parts -/

/-- A write to a target's common part stores it and answers what it then reads. -/
theorem exec_settingWrite_target {u : Target} {n : SettingName} {x : TargetSettings}
    (hs : TakesFrames s) (h : settingSite a = some (.target u n))
    (hv : (targetSettings u s).write n v = some x) :
    ∃ t, exec (.settingWrite (.fields (a, v))) s = .next t ∧
      t.settings = { s.settings with targets := tset s.settings.targets u x } ∧
      t.port.held = okWith (.setting (x.read n)) := by
  refine ⟨_, exec_settingWrite_of_stored hs h (congrArg (Option.map _) hv), rfl, ?_⟩
  show okWith (.setting ((tget (tset s.settings.targets u x) u).read n)) = _
  rw [tget_tset_self]

/-- A write to a slot's part. -/
theorem exec_settingWrite_slot {slot : Slot} {n : SettingName} {x : SlotSettings}
    (hs : TakesFrames s) (h : settingSite a = some (.slot slot n))
    (hv : (tget s.settings.slots slot).write n v = some x) :
    ∃ t, exec (.settingWrite (.fields (a, v))) s = .next t ∧
      t.settings = { s.settings with slots := tset s.settings.slots slot x } ∧
      t.port.held = okWith (.setting (x.read n)) := by
  refine ⟨_, exec_settingWrite_of_stored hs h (congrArg (Option.map _) hv), rfl, ?_⟩
  show okWith (.setting ((tget (tset s.settings.slots slot x) slot).read n)) = _
  rw [tget_tset_self]

/-- A write to a station's part. -/
theorem exec_settingWrite_station {k : Station} {n : SettingName} {x : StationSettings}
    (hs : TakesFrames s) (h : settingSite a = some (.station k n))
    (hv : (stationSettings k s).write n v = some x) :
    ∃ t, exec (.settingWrite (.fields (a, v))) s = .next t ∧
      t.settings = { s.settings with stations := tset s.settings.stations k x } ∧
      t.port.held = okWith (.setting (x.read n)) := by
  refine ⟨_, exec_settingWrite_of_stored hs h (congrArg (Option.map _) hv), rfl, ?_⟩
  show okWith (.setting ((tget (tset s.settings.stations k x) k).read n)) = _
  rw [tget_tset_self]

/-! ### Sites by their bytes -/

theorem settingSite_global {name : Byte} {n : SettingName} (hn : settingOf name = some n)
    (hp : n.part = .global) : settingSite ⟨0xFF, name⟩ = some (.global n) := by
  rw [settingSite_of_global rfl, hn, Option.bind_some, siteOf_eq, hp]

theorem settingSite_target {r name : Byte} {u : Target} {n : SettingName} (hr : r.toNat = u.val)
    (hn : settingOf name = some n) (hp : n.part = .common) :
    settingSite ⟨r, name⟩ = some (.target u n) := by
  rw [settingSite_of_target (a := ⟨r, name⟩) hr, hn, Option.bind_some, siteOf_eq, hp]

theorem settingSite_slot {r name : Byte} {slot : Slot} {n : SettingName}
    (hr : r.toNat = slot.val) (hn : settingOf name = some n) (hp : n.part = .slot) :
    settingSite ⟨r, name⟩ = some (.slot slot n) := by
  have hlt := slot.isLt
  rw [settingSite_of_target (a := ⟨r, name⟩) (u := ⟨slot.val, by omega⟩) hr, hn, Option.bind_some,
    siteOf_eq, hp]
  dsimp only
  rw [slotOfTarget_of_eq rfl, Option.map_some]

theorem settingSite_station {r name : Byte} {k : Station} {n : SettingName}
    (hr : r.toNat = 96 + k.val) (hn : settingOf name = some n) (hp : n.part = .station) :
    settingSite ⟨r, name⟩ = some (.station k n) := by
  have hlt := k.isLt
  rw [settingSite_of_target (a := ⟨r, name⟩) (u := ⟨96 + k.val, by omega⟩) hr, hn,
    Option.bind_some, siteOf_eq, hp]
  dsimp only
  rw [stationOfTarget_of_eq rfl, Option.map_some]

/-! ### Choices -/

theorem choiceOf_of_gt {α : Type} {zero one : α} (h : 1 < v.value.toNat) :
    choiceOf v zero one = none := by
  unfold choiceOf
  split
  · omega
  · omega
  · rfl

theorem choiceOf_of_le {α : Type} {zero one : α} (h : v.value.toNat ≤ 1) :
    choiceOf v zero one = some (if v.value.toNat = 1 then one else zero) := by
  unfold choiceOf
  split
  · next h0 => rw [h0]; rfl
  · next h1 => rw [h1]; rfl
  · grind

theorem optionalStationOf_of_absent (h : v.choice = 0) : optionalStationOf v = some none := by
  rw [optionalStationOf, h]
  rfl

theorem optionalStationOf_of_present {k : Station} (h : v.choice = 1)
    (hk : v.station.toNat = k.val) : optionalStationOf v = some (some k) := by
  rw [optionalStationOf, h, stationOf_of_eq hk]
  rfl

theorem optionalStationOf_of_bad (h : 1 < v.choice.toNat ∨ v.choice = 1 ∧ 15 < v.station.toNat) :
    optionalStationOf v = none := by
  rcases h with h | ⟨h, hk⟩
  · unfold optionalStationOf
    split
    · omega
    · omega
    · rfl
  · rw [optionalStationOf, h, stationOf_of_gt hk]
    rfl

theorem optionalTapOf_eq (v : SettingValue) : optionalTapOf v =
    (optionalStationOf v).map fun o => o.map fun k => ⟨k, v.value.toInt⟩ := by
  unfold optionalTapOf optionalStationOf
  split
  · rfl
  · cases stationOf v.station <;> rfl
  · rfl

theorem optionalTapOf_of_bad (h : 1 < v.choice.toNat ∨ v.choice = 1 ∧ 15 < v.station.toNat) :
    optionalTapOf v = none := by
  rw [optionalTapOf_eq, optionalStationOf_of_bad h]
  rfl

theorem stationValue_of_byte {k : Station} (h : v.station.toNat = k.val) :
    stationValue (some k) = ⟨1, v.station, 0⟩ := by
  rw [stationValue, ← h, BitVec.ofNat_toNat, BitVec.setWidth_eq]

theorem tapValue_of_byte {k : Station} (h : v.station.toNat = k.val) :
    tapValue (some ⟨k, v.value.toInt⟩) = ⟨1, v.station, v.value⟩ := by
  rw [tapValue, ← h, BitVec.ofNat_toNat, BitVec.setWidth_eq, BitVec.ofInt_toInt]

/-! ### O58, part by part -/

/-- A value that is none of a choice's. -/
theorem exec_settingWrite_badChoice (hs : TakesFrames s)
    (h : (a.record.toNat < 112 ∧ a.name = 10 ∧ 1 < v.value.toNat) ∨
       (95 < a.record.toNat ∧ a.record.toNat < 112 ∧ a.name = 20 ∧ 1 < v.value.toNat) ∨
       (a.record.toNat < 96 ∧ a.name = 18 ∧ 1 < v.value.toNat) ∨
       (a.record.toNat < 96 ∧ (a.name = 16 ∨ a.name = 17 ∨ a.name = 19) ∧
         (1 < v.choice.toNat ∨ (v.choice = 1 ∧ 15 < v.station.toNat)))) :
    exec (.settingWrite (.fields (a, v))) s = .next (replied (bare .badArgument) s) := by
  obtain ⟨r, name⟩ := a
  rcases h with ⟨hr, rfl, hv⟩ | ⟨hr, hr', rfl, hv⟩ | ⟨hr, rfl, hv⟩ | ⟨hr, hn, hv⟩
  · refine exec_settingWrite_of_refused hs
      (settingSite_target (u := ⟨r.toNat, hr⟩) (n := .enable) rfl rfl rfl) ?_
    rw [Settings.write, TargetSettings.write, choiceOf_of_gt hv]
    rfl
  · refine exec_settingWrite_of_refused hs
      (settingSite_station (k := ⟨r.toNat - 96, by simp at hr hr'; omega⟩) (n := .sense)
        (by simp at hr; simp; omega) rfl rfl) ?_
    rw [Settings.write, StationSettings.write, choiceOf_of_gt hv]
    rfl
  · refine exec_settingWrite_of_refused hs
      (settingSite_slot (slot := ⟨r.toNat, hr⟩) (n := .suppressionMode) rfl rfl rfl) ?_
    rw [Settings.write, SlotSettings.write, choiceOf_of_gt hv]
    rfl
  · have hsite := fun n (hn : settingOf name = some n) (hp : n.part = .slot) =>
      settingSite_slot (r := r) (slot := ⟨r.toNat, hr⟩) rfl hn hp
    rcases hn with rfl | rfl | rfl
    · refine exec_settingWrite_of_refused hs (hsite .tap1 rfl rfl) ?_
      rw [Settings.write, SlotSettings.write, optionalTapOf_of_bad hv]
      rfl
    · refine exec_settingWrite_of_refused hs (hsite .tap2 rfl rfl) ?_
      rw [Settings.write, SlotSettings.write, optionalTapOf_of_bad hv]
      rfl
    · refine exec_settingWrite_of_refused hs (hsite .shockStation rfl rfl) ?_
      rw [Settings.write, SlotSettings.write, optionalStationOf_of_bad hv]
      rfl

theorem read_mode (g : SlotSettings) : g.read .suppressionMode =
    numberValue (if g.mode = .latched then 1 else 0) := by
  rw [SlotSettings.read]
  cases g.mode <;> rfl

theorem read_sense (g : StationSettings) : g.read .sense =
    numberValue (if g.sense = .reversed then 1 else 0) := by
  rw [StationSettings.read]
  cases g.sense <;> rfl

theorem stationValue_eq (o : Option Station) : stationValue o = match o with
    | none => ⟨0, 0, 0⟩
    | some k => ⟨1, BitVec.ofNat 8 k.val, 0⟩ := by
  cases o <;> rfl

/-- The numbers that the reads of the global settings answer. -/
theorem read_global (g : GlobalSettings) : ∀ i < 10, ∃ n,
    settingOf (BitVec.ofNat 8 i) = some n ∧ n.part = .global ∧
      g.read n = numberValue ((globalNumbers g).getD i 0) := by
  intro i hi
  interval_cases i
  exacts [⟨.blanking, rfl, rfl, rfl⟩, ⟨.theta, rfl, rfl, rfl⟩, ⟨.settle, rfl, rfl, rfl⟩,
    ⟨.divergenceHold, rfl, rfl, rfl⟩, ⟨.stationLock, rfl, rfl, rfl⟩,
    ⟨.stationUnlock, rfl, rfl, rfl⟩, ⟨.shockHold, rfl, rfl, rfl⟩, ⟨.presenceLock, rfl, rfl, rfl⟩,
    ⟨.presenceUnlock, rfl, rfl, rfl⟩, ⟨.divider, rfl, rfl, rfl⟩]

theorem read_target (g : TargetSettings) : ∀ i < 4, ∃ n,
    settingOf (BitVec.ofNat 8 (11 + i)) = some n ∧ n.part = .common ∧
      g.read n = numberValue ((targetNumbers g).getD i 0) := by
  intro i hi
  interval_cases i
  exacts [⟨.mu, rfl, rfl, rfl⟩, ⟨.deadband, rfl, rfl, rfl⟩, ⟨.gmax, rfl, rfl, rfl⟩,
    ⟨.interval, rfl, rfl, rfl⟩]

theorem read_station (g : StationSettings) : ∀ i < 3, ∃ n,
    settingOf (BitVec.ofNat 8 (21 + i)) = some n ∧ n.part = .station ∧
      g.read n = numberValue ((stationNumbers g).getD i 0) := by
  intro i hi
  interval_cases i
  exacts [⟨.scale, rfl, rfl, rfl⟩, ⟨.threshold, rfl, rfl, rfl⟩, ⟨.coefficient, rfl, rfl, rfl⟩]

/-- A stored number stands in its range, in place of the old one, and is read back. -/
theorem write_global (g : GlobalSettings) {i low high : Nat} (x : Nat)
    (h : globalRanges[i]? = some (low, high)) : ∃ n,
    settingOf (BitVec.ofNat 8 i) = some n ∧ n.part = .global ∧
      globalNumbers (g.write n x) = (globalNumbers g).set i (max low (min high x)) ∧
      (g.write n x).read n = numberValue (max low (min high x)) := by
  obtain ⟨hlt, hget⟩ := List.getElem?_eq_some_iff.1 h
  have hi : i < 10 := hlt
  have hle : low ≤ high := by
    clear h
    revert hget
    interval_cases i <;> rintro ⟨⟩ <;> decide
  rw [← clipNat_eq low high x hle]
  clear h
  interval_cases i <;> obtain ⟨rfl, rfl⟩ := Prod.mk.inj hget
  exacts [⟨.blanking, rfl, rfl, rfl, rfl⟩, ⟨.theta, rfl, rfl, rfl, rfl⟩,
    ⟨.settle, rfl, rfl, rfl, rfl⟩, ⟨.divergenceHold, rfl, rfl, rfl, rfl⟩,
    ⟨.stationLock, rfl, rfl, rfl, rfl⟩, ⟨.stationUnlock, rfl, rfl, rfl, rfl⟩,
    ⟨.shockHold, rfl, rfl, rfl, rfl⟩, ⟨.presenceLock, rfl, rfl, rfl, rfl⟩,
    ⟨.presenceUnlock, rfl, rfl, rfl, rfl⟩, ⟨.divider, rfl, rfl, rfl, rfl⟩]

theorem write_target (g : TargetSettings) {i low high : Nat} (v : SettingValue)
    (h : targetRanges[i]? = some (low, high)) : ∃ n x,
    settingOf (BitVec.ofNat 8 (11 + i)) = some n ∧ n.part = .common ∧ g.write n v = some x ∧
      targetNumbers x = (targetNumbers g).set i (max low (min high v.value.toNat)) ∧
      x.read n = numberValue (max low (min high v.value.toNat)) ∧ x.enabled = g.enabled := by
  obtain ⟨hlt, hget⟩ := List.getElem?_eq_some_iff.1 h
  have hi : i < 4 := hlt
  have hle : low ≤ high := by
    clear h
    revert hget
    interval_cases i <;> rintro ⟨⟩ <;> decide
  rw [← clipNat_eq low high _ hle]
  clear h
  interval_cases i <;> obtain ⟨rfl, rfl⟩ := Prod.mk.inj hget
  exacts [⟨.mu, _, rfl, rfl, rfl, rfl, rfl, rfl⟩, ⟨.deadband, _, rfl, rfl, rfl, rfl, rfl, rfl⟩,
    ⟨.gmax, _, rfl, rfl, rfl, rfl, rfl, rfl⟩, ⟨.interval, _, rfl, rfl, rfl, rfl, rfl, rfl⟩]

theorem write_station (g : StationSettings) {i low high : Nat} (v : SettingValue)
    (h : stationRanges[i]? = some (low, high)) : ∃ n x,
    settingOf (BitVec.ofNat 8 (21 + i)) = some n ∧ n.part = .station ∧ g.write n v = some x ∧
      stationNumbers x = (stationNumbers g).set i (max low (min high v.value.toNat)) ∧
      x.read n = numberValue (max low (min high v.value.toNat)) ∧ x.sense = g.sense := by
  obtain ⟨hlt, hget⟩ := List.getElem?_eq_some_iff.1 h
  have hi : i < 3 := hlt
  have hle : low ≤ high := by
    clear h
    revert hget
    interval_cases i <;> rintro ⟨⟩ <;> decide
  rw [← clipNat_eq low high _ hle]
  clear h
  interval_cases i <;> obtain ⟨rfl, rfl⟩ := Prod.mk.inj hget
  exacts [⟨.scale, _, rfl, rfl, rfl, rfl, rfl, rfl⟩, ⟨.threshold, _, rfl, rfl, rfl, rfl, rfl, rfl⟩,
    ⟨.coefficient, _, rfl, rfl, rfl, rfl, rfl, rfl⟩]

/-- The choices of two values. -/
theorem write_enable (g : TargetSettings) (h : v.value.toNat ≤ 1) :
    g.write .enable v = some { g with enabled := decide (v.value.toNat = 0) } ∧
      TargetSettings.read { g with enabled := decide (v.value.toNat = 0) } .enable =
        numberValue v.value.toNat := by
  rw [TargetSettings.write, choiceOf_of_le h]
  rcases Nat.le_one_iff_eq_zero_or_eq_one.1 h with h | h <;> rw [h] <;> exact ⟨rfl, rfl⟩

theorem write_sense (g : StationSettings) (h : v.value.toNat ≤ 1) :
    g.write .sense v =
        some { g with sense := if v.value.toNat = 1 then .reversed else .normal } ∧
      StationSettings.read { g with sense := if v.value.toNat = 1 then .reversed else .normal }
        .sense = numberValue v.value.toNat := by
  rw [StationSettings.write, choiceOf_of_le h]
  rcases Nat.le_one_iff_eq_zero_or_eq_one.1 h with h | h <;> rw [h] <;> exact ⟨rfl, rfl⟩

theorem write_mode (g : SlotSettings) (h : v.value.toNat ≤ 1) :
    g.write .suppressionMode v =
        some { g with mode := if v.value.toNat = 1 then .latched else .frame } ∧
      SlotSettings.read { g with mode := if v.value.toNat = 1 then .latched else .frame }
        .suppressionMode = numberValue v.value.toNat := by
  rw [SlotSettings.write, choiceOf_of_le h]
  rcases Nat.le_one_iff_eq_zero_or_eq_one.1 h with h | h <;> rw [h] <;> exact ⟨rfl, rfl⟩

theorem tget_tset_targets {s t : State} {u : Target} {x : TargetSettings}
    (h : t.settings = { s.settings with targets := tset s.settings.targets u x }) (y : Target) :
    targetSettings y t = if y = u then x else targetSettings y s := by
  rw [targetSettings, h]
  exact tget_tset ..

theorem tget_tset_stations {s t : State} {k : Station} {x : StationSettings}
    (h : t.settings = { s.settings with stations := tset s.settings.stations k x }) (y : Station) :
    stationSettings y t = if y = k then x else stationSettings y s := by
  rw [stationSettings, h]
  exact tget_tset ..

end

/-- Settles O58. -/
theorem settingsAreJudgedStoredAndReadBack : Obligations.SettingsAreJudgedStoredAndReadBack := by
  refine ⟨fun a v s hs => ⟨fun h => ?_, fun h => exec_settingWrite_badChoice hs h⟩,
    fun a v s t hs ht hok => ?_, fun s hs => ?_, fun v s hs => ?_⟩
  · have hsite := settingSite_eq_none h
    exact ⟨exec_settingWrite_of_noSite hs hsite, exec_settingRead_of_none hs hsite⟩
  · rcases exec_settingWrite_cases (a := a) (v := v) hs with h | ⟨site, g, hsite, h⟩
    · obtain rfl : replied (bare .badArgument) s = t := Host.Outcome.next.inj (h.symm.trans ht)
      exact absurd hok (by simp [replied, bare])
    · obtain rfl : storeSettings site g (endTransaction s) = t :=
        Host.Outcome.next.inj (h.symm.trans ht)
      have hread := exec_settingRead_stored (g := g) hs.1 hsite
      exact ⟨⟨g.read site, rfl, hread⟩, hread, rfl⟩
  · intro answers
    refine ⟨fun i hi => ?_, fun u r hr => ⟨?_, fun i hi => ?_⟩, fun slot r hr => ?_,
      fun k r hr => ⟨?_, fun i hi => ?_⟩⟩
    · obtain ⟨n, hn, hp, hread⟩ := read_global s.settings.global i hi
      exact exec_settingRead_of_value hs (settingSite_global hn hp) hread
    · exact exec_settingRead_of_site hs (settingSite_target (n := .enable) hr rfl rfl)
    · obtain ⟨n, hn, hp, hread⟩ := read_target (targetSettings u s) i hi
      exact exec_settingRead_of_value hs (settingSite_target hr hn hp) hread
    · refine ⟨exec_settingRead_of_site hs (settingSite_slot (n := .feedLimit) hr rfl rfl),
        exec_settingRead_of_value hs (settingSite_slot (n := .suppressionMode) hr rfl rfl)
          (read_mode _), ?_⟩
      intro shows tap
      have htap : ∀ x, tapValue x = tap x := fun x => by cases x <;> rfl
      exact ⟨exec_settingRead_of_value hs (settingSite_slot (n := .tap1) hr rfl rfl) (htap _),
        exec_settingRead_of_value hs (settingSite_slot (n := .tap2) hr rfl rfl) (htap _),
        exec_settingRead_of_value hs (settingSite_slot (n := .shockStation) hr rfl rfl)
          (stationValue_eq _)⟩
    · exact exec_settingRead_of_value hs (settingSite_station (n := .sense) hr rfl rfl)
        (read_sense _)
    · obtain ⟨n, hn, hp, hread⟩ := read_station (stationSettings k s) i hi
      exact exec_settingRead_of_value hs (settingSite_station hr hn hp) hread
  · intro n number
    refine ⟨fun i low high h => ?_, fun u r i low high hr h => ?_, fun k r i low high hr h => ?_,
      fun u r hr hn => ?_, fun k r hr hn => ?_, fun slot r hr => ?_⟩
    · obtain ⟨name, hname, hp, hnumbers, hread⟩ := write_global s.settings.global v.value.toNat h
      exact ⟨_, exec_settingWrite_of_stored hs (settingSite_global hname hp) rfl, hnumbers,
        congrArg (fun x => okWith (.setting x)) hread, rfl⟩
    · obtain ⟨name, x, hname, hp, hx, hnumbers, hread, hen⟩ :=
        write_target (targetSettings u s) v h
      obtain ⟨t, ht, hset, hheld⟩ :=
        exec_settingWrite_target hs (settingSite_target hr hname hp) hx
      have hget := tget_tset_targets hset
      refine ⟨t, ht, ?_, ?_, ?_, fun y hy => ?_, ?_⟩
      · rw [hget, if_pos rfl, hnumbers]
      · rw [hheld, hread]
        rfl
      · rw [hget, if_pos rfl, hen]
      · rw [hget, if_neg hy]
      · rw [hset]
    · obtain ⟨name, x, hname, hp, hx, hnumbers, hread, hen⟩ :=
        write_station (stationSettings k s) v h
      obtain ⟨t, ht, hset, hheld⟩ :=
        exec_settingWrite_station hs (settingSite_station hr hname hp) hx
      have hget := tget_tset_stations hset
      refine ⟨t, ht, ?_, ?_, ?_, fun y hy => ?_, ?_⟩
      · rw [hget, if_pos rfl, hnumbers]
      · rw [hheld, hread]
        rfl
      · rw [hget, if_pos rfl, hen]
      · rw [hget, if_neg hy]
      · rw [hset]
    · obtain ⟨hw, hread⟩ := write_enable (targetSettings u s) hn
      obtain ⟨t, ht, hset, hheld⟩ := exec_settingWrite_target hs
        (settingSite_target (name := 10) (n := .enable) hr rfl rfl) hw
      exact ⟨t, ht, hset, hheld.trans (congrArg (fun x => okWith (.setting x)) hread)⟩
    · obtain ⟨hw, hread⟩ := write_sense (stationSettings k s) hn
      obtain ⟨t, ht, hset, hheld⟩ := exec_settingWrite_station hs
        (settingSite_station (name := 20) (n := .sense) hr rfl rfl) hw
      exact ⟨t, ht, hset, hheld.trans (congrArg (fun x => okWith (.setting x)) hread)⟩
    · intro old stores absent
      have hstores : ∀ {name : Byte} (n : SettingName) {new : SlotSettings} {w : SettingValue},
          settingOf name = some n → n.part = .slot → old.write n v = some new →
          new.read n = w → stores name new (okWith (.setting w)) := by
        intro name n new w hname hp hw hread
        obtain ⟨t, ht, hset, hheld⟩ :=
          exec_settingWrite_slot hs (settingSite_slot hr hname hp) hw
        exact ⟨t, ht, hset, hheld.trans (congrArg (fun x => okWith (.setting x)) hread)⟩
      refine ⟨?_, fun hn => ?_, fun hv => ⟨?_, ?_, ?_⟩, fun k hv hk => ?_⟩
      · rw [← clipNat_eq 1 32767 n (by decide)]
        exact hstores .feedLimit rfl rfl rfl rfl
      · obtain ⟨hw, hread⟩ := write_mode old hn
        exact hstores .suppressionMode rfl rfl hw hread
      · exact hstores .tap1 rfl rfl (by
          rw [SlotSettings.write, optionalTapOf_eq, optionalStationOf_of_absent hv]; rfl) rfl
      · exact hstores .tap2 rfl rfl (by
          rw [SlotSettings.write, optionalTapOf_eq, optionalStationOf_of_absent hv]; rfl) rfl
      · exact hstores .shockStation rfl rfl (by
          rw [SlotSettings.write, optionalStationOf_of_absent hv]; rfl) rfl
      · intro tap
        refine ⟨?_, ?_, ?_⟩
        · exact hstores .tap1 rfl rfl (by
            rw [SlotSettings.write, optionalTapOf_eq, optionalStationOf_of_present hv hk]; rfl)
            (tapValue_of_byte hk)
        · exact hstores .tap2 rfl rfl (by
            rw [SlotSettings.write, optionalTapOf_eq, optionalStationOf_of_present hv hk]; rfl)
            (tapValue_of_byte hk)
        · exact hstores .shockStation rfl rfl (by
            rw [SlotSettings.write, optionalStationOf_of_present hv hk]; rfl)
            (stationValue_of_byte hk)

end Sys2Proof.Machine
end

section
/-! PROOF. What has come before a command at its moment (R3, R38): the records' time events and the
fetch start, and every command that comes after them. -/

namespace Sys2Proof.Machine

open Sys2Proof

section

variable {s : State} {c : Instr}

/-! ### The moment is taken once -/

theorem getRecord_settleRecord_of_ne {r q : RecordNo} (h : q ≠ r) (s : State) :
    getRecord q (settleRecord r s) = getRecord q s := by
  rcases settleRecord_cases r s with ⟨st, -, hs⟩ | ⟨-, hs⟩
  · rw [hs, getRecord_setRecord, if_neg h]
  · rw [hs, getRecord_retire_of_ne h]

theorem now_settleRecord (r : RecordNo) (s : State) : (settleRecord r s).now = s.now := by
  rcases settleRecord_cases r s with ⟨st, -, hs⟩ | ⟨-, hs⟩ <;> rw [hs] <;> rfl

/-- A record that has been settled is due no more. -/
theorem recordDue_settleRecord (r : RecordNo) (s : State) :
    recordDue (getRecord r (settleRecord r s)) s.now = false := by
  rcases settleRecord_cases r s with ⟨st, hst, hs⟩ | ⟨-, hs⟩
  · rw [hs, getRecord_setRecord_self]
    have hstate : SourceRecord.stateAt { getRecord r s with state := st } s.now = some st := hst
    simp [recordDue, hstate]
  · rw [hs, (retire_spec r s).1]
    rfl

/-- One record's time events. -/
def takeRecordEvent (s : State) (r : RecordNo) : State :=
  if recordDue (getRecord r s) s.now then settleRecord r s else s

theorem getRecord_takeRecordEvent_of_ne {r q : RecordNo} (h : q ≠ r) (s : State) :
    getRecord q (takeRecordEvent s r) = getRecord q s := by
  unfold takeRecordEvent
  split
  · exact getRecord_settleRecord_of_ne h s
  · rfl

theorem now_takeRecordEvent (s : State) (r : RecordNo) : (takeRecordEvent s r).now = s.now := by
  unfold takeRecordEvent
  split
  · exact now_settleRecord r s
  · rfl

theorem recordDue_takeRecordEvent (s : State) (r : RecordNo) :
    recordDue (getRecord r (takeRecordEvent s r)) s.now = false := by
  unfold takeRecordEvent
  split
  · exact recordDue_settleRecord r s
  · next h => exact Bool.eq_false_iff.2 h

theorem recordDue_foldl (l : List RecordNo) (s : State) (q : RecordNo)
    (h : q ∈ l ∨ recordDue (getRecord q s) s.now = false) :
    recordDue (getRecord q (l.foldl takeRecordEvent s)) s.now = false := by
  induction l generalizing s with
  | nil => exact h.resolve_left (List.not_mem_nil)
  | cons r l ih =>
    have := ih (takeRecordEvent s r)
    rw [now_takeRecordEvent] at this
    refine this ?_
    by_cases hq : q = r
    · subst hq
      exact .inr (recordDue_takeRecordEvent s q)
    · rw [getRecord_takeRecordEvent_of_ne hq]
      exact h.imp_left fun hm => (List.mem_cons.1 hm).resolve_left hq

theorem now_takeRecordEvents (s : State) : (takeRecordEvents s).now = s.now :=
  foldl_keeps State.now takeRecordEvent now_takeRecordEvent (List.finRange 128) s

theorem noEventDue_takeRecordEvents (s : State) : NoEventDue (takeRecordEvents s) := fun q => by
  rw [now_takeRecordEvents]
  exact recordDue_foldl (List.finRange 128) s q (.inl (List.mem_finRange q))

@[simp] theorem takeRecordEvents_takeRecordEvents (s : State) :
    takeRecordEvents (takeRecordEvents s) = takeRecordEvents s :=
  takeRecordEvents_of_none (noEventDue_takeRecordEvents s)

theorem fetchStart_frame (s : State) : fetchStart s = { s with cache := (fetchStart s).cache } := by
  rcases fetchStart_cases s with ⟨-, hs⟩ | ⟨id, rest, d, -, -, -, -, -, hs⟩
  · rw [hs]
  · rw [hs]
    rfl

theorem now_fetchStart (s : State) : (fetchStart s).now = s.now := by rw [fetchStart_frame]

theorem coldReset_fetchStart (s : State) : (fetchStart s).coldReset = s.coldReset := by
  rw [fetchStart_frame]

theorem port_fetchStart (s : State) : (fetchStart s).port = s.port := by rw [fetchStart_frame]

theorem pending_fetchStart (s : State) : (fetchStart s).pending = s.pending := by
  rw [fetchStart_frame]

theorem noEventDue_fetchStart (h : NoEventDue s) : NoEventDue (fetchStart s) := by
  rw [fetchStart_frame]
  exact h

theorem noEventDue_takeMoment (s : State) : NoEventDue (takeMoment s) :=
  noEventDue_fetchStart (noEventDue_takeRecordEvents s)

theorem startDue_takeMoment (s : State) : startDue (takeMoment s) = false :=
  startDue_fetchStart _

theorem now_takeMoment (s : State) : (takeMoment s).now = s.now := by
  rw [takeMoment, now_fetchStart, now_takeRecordEvents]

@[simp] theorem takeMoment_takeMoment (s : State) : takeMoment (takeMoment s) = takeMoment s :=
  takeMoment_of_ready (noEventDue_takeMoment s) (startDue_takeMoment s)

@[simp] theorem takeMoment_takeRecordEvents (s : State) :
    takeMoment (takeRecordEvents s) = takeMoment s :=
  congrArg fetchStart (takeRecordEvents_takeRecordEvents s)

@[simp] theorem takeRecordEvents_takeMoment (s : State) :
    takeRecordEvents (takeMoment s) = takeMoment s :=
  takeRecordEvents_of_none (noEventDue_takeMoment s)

theorem takeMomentFor_takeRecordEvents (id : ProfileId) (s : State) :
    takeMomentFor id (takeRecordEvents s) = takeMomentFor id s := by
  rw [takeMomentFor, takeRecordEvents_takeRecordEvents, takeMoment_takeRecordEvents, takeMomentFor]

theorem takeMomentFor_of_not_yields {id : ProfileId}
    (h : startYields id (takeRecordEvents s) = false) : takeMomentFor id s = takeMoment s := by
  rw [takeMomentFor, h, if_neg Bool.false_ne_true]

theorem takeMomentFor_takeMoment (id : ProfileId) (s : State) :
    takeMomentFor id (takeMoment s) = takeMoment s :=
  takeMomentFor_of_none id (noEventDue_takeMoment s) (.inl (startDue_takeMoment s))

theorem takeRecordEvents_coldReset (s : State) : (takeRecordEvents s).coldReset = s.coldReset := by
  have h := takeRecordEvents_frame s
  simp only [outsideRecords, Prod.mk.injEq] at h
  exact h.2.2.1

theorem takeMoment_coldReset (s : State) : (takeMoment s).coldReset = s.coldReset := by
  rw [takeMoment, coldReset_fetchStart, takeRecordEvents_coldReset]

/-- The queue and the port are no part of the moment. -/
theorem coldReset_takeRecordEvents (cause : ResetCause) (s : State) :
    coldReset cause (takeRecordEvents s) = coldReset cause s := by
  have h := takeRecordEvents_frame s
  simp only [outsideRecords, Prod.mk.injEq] at h
  obtain ⟨-, -, -, -, -, -, -, -, -, -, -, -, -, -, -, hport, hpending⟩ := h
  rw [coldReset, coldReset, hport, hpending]

theorem coldReset_takeMoment (cause : ResetCause) (s : State) :
    coldReset cause (takeMoment s) = coldReset cause s := by
  rw [← coldReset_takeRecordEvents cause s, coldReset, coldReset, takeMoment, port_fetchStart,
    pending_fetchStart]

/-! ### Commands that come after it -/

/-- What a command does on a running part begins with the moment: the records' time events and the
fetch start, unless the start yields to the profile that the command names. -/
def FollowsMoment (c : Instr) : Prop :=
  ∃ (held g before : State → State),
    (∀ s, exec c s = onPart held (fun s => g (before s)) s) ∧
      (before = takeMoment ∨ ∃ id, namedProfile c = some id ∧ before = takeMomentFor id)

theorem followsMoment_of_afterEvents {f : State → State} (h : ∀ s, exec c s = afterEvents f s) :
    FollowsMoment c :=
  ⟨id, f, takeMoment, h, .inl rfl⟩

theorem followsMoment_of_manage {α : Type} {p : Payload α} {f : α → State → State}
    (h : ∀ s, exec c s = manage p f s) : FollowsMoment c :=
  ⟨endTransaction, takeFrame p f, takeMoment, h, .inl rfl⟩

theorem followsMoment_of_inTurn {p : Place} {slot : Slot} {f : State → State}
    (h : ∀ s, exec c s = inTurn p slot f s) : FollowsMoment c :=
  ⟨id, fun s => inPlace p slot f (takeBoundary s), takeMoment, h, .inl rfl⟩

theorem followsMoment_drop (p : Payload Half) : FollowsMoment (.drop p) := by
  refine ⟨endTransaction, _, beforeDrop p, fun _ => rfl, ?_⟩
  cases p with
  | wrongLength => exact .inl rfl
  | fields h =>
    cases hp : profileOf h with
    | none =>
      refine .inl (funext fun s => ?_)
      rw [beforeDrop, hp]
    | some id =>
      refine .inr ⟨id, hp, funext fun s => ?_⟩
      rw [beforeDrop, hp]

/-- Every command but the records' time events and the resets. -/
theorem followsMoment (h : ∀ r : RecordNo, c ≠ .recordStartReached r ∧ c ≠ .recordEndReached r ∧
      c ≠ .retirement r) (h1 : c ≠ .coldResetEnd) (h2 : c ≠ .powerUp) (h3 : c ≠ .resetLine) :
    FollowsMoment c := by
  cases c with
  | recordStartReached r => exact absurd rfl (h r).1
  | recordEndReached r => exact absurd rfl (h r).2.1
  | retirement r => exact absurd rfl (h r).2.2
  | coldResetEnd => exact absurd rfl h1
  | powerUp => exact absurd rfl h2
  | resetLine => exact absurd rfl h3
  | drop p => exact followsMoment_drop p
  | notice slot m =>
    exact ⟨id, fun s => inPlace .message slot (inWindow slot (takeNotice slot m)) (takeBoundary s),
      takeMomentFor m.profile, fun _ => rfl, .inr ⟨m.profile, rfl, rfl⟩⟩
  | chassisTimeAdvance =>
    refine ⟨id, fun s => advance (finishStationEvaluations
      (periodWindows (periodOf s.now).val (takeBoundary s))), takeMoment, fun s => ?_, .inl rfl⟩
    simp only [now_takeMoment]
    rfl
  | unknownCommand code =>
    exact ⟨_, unknownCommand code, takeMoment, fun _ => rfl, .inl rfl⟩
  | transactionStart => exact ⟨_, transactionStart, takeMoment, fun _ => rfl, .inl rfl⟩
  | amend x m | withdraw x m | close x m n | status x m | malformedMessage x | upstreamPhaseEnd x
  | feed x => exact followsMoment_of_inTurn fun _ => rfl
  | sweepEnd stamp =>
    exact followsMoment_of_afterEvents (f := fun s => closeSweep stamp (takeBoundary s)) fun _ => rfl
  | frameBoundary acts | settleEnd u | divergenceHoldEnd u | shockHoldEnd k | holdExpiry x
  | predictionListRead | evaluationEnd u | gainUpdate | channelWord tag v
  | discardedWord | fetchStart | fetchCompleteGood page | fetchCompleteBad | listWriteGrant
  | listReadGrant | captureEmptyGrant | captureCopyGrant | sourceListGrant | warmLine =>
    exact followsMoment_of_afterEvents fun _ => rfl
  | identify p | readFlags p | setAlertMask p | settingWrite p | settingRead p | listWrite p
  | listRead p | capture p | swapRequest p | swapCancel p | sourceQuery p | sourceList p
  | targetRead p | stationRead p | cacheRead p | preload p | retry p | lend p | reclaim p
  | forcePresence p | forceLock p | suppressClear p | holdShorten p | restartWarm p
  | restartCold p => exact followsMoment_of_manage fun _ => rfl

/-- Such a command does what it does from the state in which the records' time events have been
taken, and, unless a start yields to it, the whole moment. -/
theorem FollowsMoment.exec_eq (h : FollowsMoment c) (hs : Running s) :
    exec c s = exec c (takeRecordEvents s) ∧
      (yieldsTo c (takeRecordEvents s) = false → exec c s = exec c (takeMoment s)) := by
  obtain ⟨held, g, before, hc, hbefore⟩ := h
  have hexec : ∀ t, Running t → exec c t = .next (g (before t)) := fun t ht => by
    rw [hc, onPart_of_running _ _ ht]
  rw [hexec s hs, hexec _ ((takeRecordEvents_coldReset s).trans hs),
    hexec _ ((takeMoment_coldReset s).trans hs)]
  rcases hbefore with rfl | ⟨id, hid, rfl⟩
  · exact ⟨by rw [takeMoment_takeRecordEvents], fun _ => by rw [takeMoment_takeMoment]⟩
  · refine ⟨by rw [takeMomentFor_takeRecordEvents], fun hy => ?_⟩
    rw [yieldsTo_of_some hid] at hy
    rw [takeMomentFor_takeMoment, takeMomentFor_of_not_yields hy]

theorem exec_powerUp (s : State) : exec .powerUp s = .next (coldReset .powerUp s) := rfl

theorem exec_resetLine (s : State) : exec .resetLine s = .next (coldReset .resetLine s) := rfl

/-- Every command that is no time event of a record and no end of a reset comes after them. -/
theorem exec_eq_exec_takeMoment (hs : Running s)
    (h : ∀ r : RecordNo, c ≠ .recordStartReached r ∧ c ≠ .recordEndReached r ∧ c ≠ .retirement r)
    (h1 : c ≠ .coldResetEnd) : exec c s = exec c (takeRecordEvents s) ∧
      (yieldsTo c (takeRecordEvents s) = false → exec c s = exec c (takeMoment s)) := by
  by_cases h2 : c = .powerUp
  · subst h2
    rw [exec_powerUp, exec_powerUp, exec_powerUp, coldReset_takeRecordEvents, coldReset_takeMoment]
    exact ⟨rfl, fun _ => rfl⟩
  by_cases h3 : c = .resetLine
  · subst h3
    rw [exec_resetLine, exec_resetLine, exec_resetLine, coldReset_takeRecordEvents, coldReset_takeMoment]
    exact ⟨rfl, fun _ => rfl⟩
  exact (followsMoment h h1 h2 h3).exec_eq hs

end

end Sys2Proof.Machine
end

section
/-! PROOF. The Profile Cache (spec/02): the completions of a fetch and the records that they fix. -/

namespace Sys2Proof.Machine

open Sys2Proof

section

variable {s t : State} {id : ProfileId} {c : CacheNo} {page : List Int} {r : RecordNo}

/-! ### The count of a filled slot -/

/-- A slot is FILLED with a profile's page, its count the live records that name the profile. -/
def FilledExactly (c : CacheNo) (id : ProfileId) (page : List Int) (s : State) : Prop :=
  tget s.cache.slots c = .filled id page (liveNaming id s)

theorem FilledExactly.restate {v : SourceRecord} (h : FilledExactly c id page s)
    (hr : isLive (getRecord r s) = true) (hv : isLive v = true)
    (hp : v.profile = (getRecord r s).profile) : FilledExactly c id page (setRecord r v s) := by
  have hcount := liveNaming_of_replaced (s := s) (t := setRecord r v s) id rfl
  rw [naming_of_live hr, naming_of_live hv, hp] at hcount
  rw [FilledExactly, Nat.add_right_cancel hcount]
  exact h

theorem FilledExactly.retire (h : FilledExactly c id page s)
    (hr : isLive (getRecord r s) = true) : FilledExactly c id page (retire r s) := by
  have hcount := liveNaming_of_replaced (s := s) (t := Machine.retire r s) id rfl
  rw [naming_of_live hr, naming_of_free (v := freeRecord) rfl] at hcount
  rw [FilledExactly, (retire_spec r s).2.2.2.1, h]
  show CacheSlot.filled id page (if id = (getRecord r s).profile then _ else _) = _
  by_cases he : id = (getRecord r s).profile
  · simp [he] at hcount ⊢
    rw [← he] at hcount ⊢
    omega
  · simp [he, Ne.symm he] at hcount ⊢
    omega

theorem FilledExactly.settleRecord (h : FilledExactly c id page s)
    (hr : isLive (getRecord r s) = true) : FilledExactly c id page (settleRecord r s) := by
  rcases settleRecord_cases r s with ⟨st, hst, hs⟩ | ⟨-, hs⟩
  · rw [hs]
    exact h.restate hr (isLive_stateAt hst) rfl
  · rw [hs]
    exact h.retire hr

theorem FilledExactly.fixRecord (h : FilledExactly c id page s) (i : ProfileId) (n : Nat)
    (r : RecordNo) : FilledExactly c id page (fixRecord i n s r) := by
  unfold Machine.fixRecord
  split
  · next hr =>
    obtain ⟨hlive, -, -⟩ := hr
    refine FilledExactly.settleRecord ?_ ?_
    · exact h.restate hlive hlive rfl
    · rw [getRecord_setRecord_self]
      exact hlive
  · exact h

theorem FilledExactly.fixRecords (h : FilledExactly c id page s) (i : ProfileId) (n : Nat) :
    FilledExactly c id page (fixRecords i n s) := by
  unfold Machine.fixRecords
  generalize List.finRange 128 = l
  induction l generalizing s with
  | nil => exact h
  | cons r l ih => exact ih (h.fixRecord i n r)

/-! ### The records that a completion fixes (R20) -/

/-- A record once the profile of a length has arrived. -/
def fixedRecord (id : ProfileId) (n : Nat) (now : Time) (v : SourceRecord) : SourceRecord :=
  if isLive v ∧ v.profile = id ∧ v.provisional then
    match SourceRecord.stateAt { v with
        length := confirmedLength v.limit n, provisional := false } now with
    | some st => { v with length := confirmedLength v.limit n, provisional := false, state := st }
    | none => freeRecord
  else v

theorem now_fixRecord (i : ProfileId) (n : Nat) (s : State) (r : RecordNo) :
    (fixRecord i n s r).now = s.now := by
  unfold fixRecord
  split
  · exact now_settleRecord r _
  · rfl

theorem getRecord_fixRecord (i : ProfileId) (n : Nat) (s : State) (r q : RecordNo) :
    getRecord q (fixRecord i n s r) =
      if q = r then fixedRecord i n s.now (getRecord q s) else getRecord q s := by
  unfold fixRecord fixedRecord
  by_cases hq : q = r
  · subst hq
    rw [if_pos rfl]
    split
    · generalize hv : ({ getRecord q s with
        length := confirmedLength (getRecord q s).limit n
        provisional := false } : SourceRecord) = v
      have hprofile : v.profile = (getRecord q s).profile := by rw [← hv]
      have hslot : v.slot = (getRecord q s).slot := by rw [← hv]
      cases hst : v.stateAt s.now with
      | none =>
        rw [settleRecord_setRecord_none hst hslot hprofile, (retire_spec q s).1]
      | some st =>
        rw [settleRecord_setRecord_some hst, getRecord_setRecord_self, ← hv]
    · rfl
  · rw [if_neg hq]
    split
    · rw [getRecord_settleRecord_of_ne hq, getRecord_setRecord, if_neg hq]
    · rfl

theorem getRecord_foldl_fixRecord (i : ProfileId) (n : Nat) (q : RecordNo) (l : List RecordNo)
    (hl : l.Nodup) (s : State) : getRecord q (l.foldl (fixRecord i n) s) =
      if q ∈ l then fixedRecord i n s.now (getRecord q s) else getRecord q s := by
  induction l generalizing s with
  | nil => rw [if_neg List.not_mem_nil, List.foldl_nil]
  | cons r l ih =>
    obtain ⟨hr, hl⟩ := List.nodup_cons.mp hl
    rw [List.foldl_cons, ih hl, now_fixRecord, getRecord_fixRecord]
    by_cases hq : q = r
    · subst hq
      simp [hr]
    · simp [hq]

theorem getRecord_fixRecords (i : ProfileId) (n : Nat) (q : RecordNo) (s : State) :
    getRecord q (fixRecords i n s) = fixedRecord i n s.now (getRecord q s) :=
  (getRecord_foldl_fixRecord i n q _ (List.nodup_finRange 128) s).trans
    (if_pos (List.mem_finRange q))

/-- Fixing records changes counts, and no slot's id. -/
theorem heldId_mapCount (x : CacheSlot) (i : ProfileId) (f : Nat → Nat) :
    (x.mapCount i f).heldId = x.heldId := by
  cases x <;> rfl

theorem heldId_settleRecord (r : RecordNo) (s : State) (c : CacheNo) :
    (tget (settleRecord r s).cache.slots c).heldId = (tget s.cache.slots c).heldId := by
  rcases settleRecord_cases r s with ⟨st, -, hs⟩ | ⟨-, hs⟩
  · rw [hs]
    rfl
  · rw [hs, (retire_spec r s).2.2.2.1, heldId_mapCount]

theorem heldId_fixRecords (i : ProfileId) (n : Nat) (s : State) (c : CacheNo) :
    (tget (fixRecords i n s).cache.slots c).heldId = (tget s.cache.slots c).heldId := by
  have hstep : ∀ (s : State) (r : RecordNo),
      (tget (fixRecord i n s r).cache.slots c).heldId = (tget s.cache.slots c).heldId := by
    intro s r
    unfold fixRecord
    split
    · exact heldId_settleRecord r _ c
    · rfl
  unfold fixRecords
  generalize List.finRange 128 = l
  induction l generalizing s with
  | nil => rfl
  | cons r l ih => rw [List.foldl_cons, ih, hstep]

/-- The fixing of records changes the table and the reference counts alone. -/
theorem fixRecords_eq (i : ProfileId) (n : Nat) (s : State) : ∃ records slots,
    fixRecords i n s = { s with table := records, cache := { s.cache with slots := slots } } := by
  unfold fixRecords
  generalize List.finRange 128 = l
  induction l generalizing s with
  | nil => exact ⟨s.table, s.cache.slots, rfl⟩
  | cons r l ih =>
    obtain ⟨records, slots, h⟩ := ih (fixRecord i n s r)
    have hfix : ∃ records slots, fixRecord i n s r =
        { s with table := records, cache := { s.cache with slots := slots } } := by
      unfold fixRecord
      split
      · rcases settleRecord_cases r (setRecord r { getRecord r s with
            length := confirmedLength (getRecord r s).limit n, provisional := false } s) with
          ⟨st, -, hs⟩ | ⟨-, hs⟩
        · exact ⟨_, s.cache.slots, hs⟩
        · exact ⟨_, _, hs⟩
      · exact ⟨s.table, s.cache.slots, rfl⟩
    obtain ⟨records', slots', h'⟩ := hfix
    rw [List.foldl_cons, h, h']
    exact ⟨records, slots, rfl⟩

/-! ### Completions (R40, R41, R47) -/

theorem lendAtCompletion_eq (s : State) : lendAtCompletion s =
    if s.cache.port = .lendPending then enterLent s else s := by
  unfold lendAtCompletion
  cases s.cache.port <;> rfl

theorem fetchCompleteGood_of_flight {page : List Half} {f : Flight} (hf : s.cache.flight = some f)
    (hlow : 1 ≤ page.length) (hhigh : page.length ≤ 256) :
    fetchCompleteGood page s = completeGood f (page.map BitVec.toInt) s := by
  have hok : pageLengthOk page = true := by simp [pageLengthOk, hlow, hhigh]
  rw [fetchCompleteGood, hf]
  exact if_pos hok

theorem fixedRecord_of_provisional {n : Nat} {now : Time} {v : SourceRecord}
    (h : isLive v = true) (hp : v.profile = id) (hprov : v.provisional = true) :
    fixedRecord id n now v =
      match SourceRecord.stateAt { v with
          length := confirmedLength v.limit n, provisional := false } now with
      | some st => { v with length := confirmedLength v.limit n, provisional := false, state := st }
      | none => freeRecord :=
  if_pos ⟨h, hp, hprov⟩

theorem fixedRecord_of_not {n : Nat} {now : Time} {v : SourceRecord}
    (h : isLive v = false ∨ v.profile ≠ id ∨ v.provisional = false) :
    fixedRecord id n now v = v := by
  refine if_neg ?_
  rintro ⟨hl, hp, hprov⟩
  rcases h with h | h | h
  · exact absurd hl (by rw [h]; decide)
  · exact h hp
  · exact absurd hprov (by rw [h]; decide)

theorem confirmedLength_eq (limit : Option Nat) (n : Nat) : confirmedLength limit n =
    match limit with
    | none => n
    | some l => if l ≤ n then l else n := by
  cases limit <;> rfl

/-- What a completion makes of the port's state. -/
def lentAtCompletion (p : PortState) : PortState := if p = .lendPending then .lent else p

theorem lendAtCompletion_frame (s : State) : lendAtCompletion s = { s with
    cache := { s.cache with port := lentAtCompletion s.cache.port }
    port := if s.cache.port = .lendPending then (latch .lendGranted s).port else s.port } := by
  rw [lendAtCompletion_eq, lentAtCompletion]
  split
  · rfl
  · rfl

theorem fetchCompleteBad_of_flight {f : Flight} (hf : s.cache.flight = some f) :
    fetchCompleteBad s = completeBad f s := by
  rw [fetchCompleteBad, hf]

theorem fetchCompleteBad_of_none (hf : s.cache.flight = none) : fetchCompleteBad s = s := by
  rw [fetchCompleteBad, hf]

theorem fetchCompleteGood_of_none (samples : List Half) (hf : s.cache.flight = none) :
    fetchCompleteGood samples s = s := by
  rw [fetchCompleteGood, hf]

end

/-- Settles O38: the slot is filled with its exact count, each fixing step keeps that, and each
record is fixed by itself. -/
theorem fetchesEndInAFilledSlotOrAnUnusableId :
    Obligations.FetchesEndInAFilledSlotOrAnUnusableId := by
  refine ⟨fun page f s hs hf hlow hhigh => ?_, fun f s hs hf => ?_, fun s hs hf => ⟨?_, fun page => ?_⟩⟩
  · have hexec : exec (.fetchCompleteGood page) s =
        .next (completeGood f (page.map BitVec.toInt) s) :=
      (afterEvents_of_ready _ hs).trans
        (congrArg _ (fetchCompleteGood_of_flight hf hlow hhigh))
    have hlen : (page.map BitVec.toInt).length = page.length := List.length_map ..
    generalize hp : page.map BitVec.toInt = p at hexec hlen
    rw [completeGood, hlen, lendAtCompletion_frame] at hexec
    have hfill : FilledExactly f.slot f.id p (fillSlot f p s) := tget_tset_self ..
    have hfilled := hfill.fixRecords f.id page.length
    have hheld := fun c => heldId_fixRecords f.id page.length (fillSlot f p s) c
    have hrec := fun q => getRecord_fixRecords f.id page.length q (fillSlot f p s)
    obtain ⟨records, slots, hu⟩ := fixRecords_eq f.id page.length (fillSlot f p s)
    rw [hu] at hexec hfilled hheld hrec
    refine ⟨_, hexec, rfl, hfilled, fun c hc => ?_, rfl, rfl, rfl, rfl, rfl,
      fun r hlive hprofile hprov => ?_, fun r hr => ?_, rfl⟩
    · refine (hheld c).trans (congrArg CacheSlot.heldId (tget_tset_of_ne _ _ hc))
    · intro v
      have hv : v = { getRecord r s with
          length := confirmedLength (getRecord r s).limit page.length, provisional := false } :=
        congrArg (fun n => { getRecord r s with length := n, provisional := false })
          (confirmedLength_eq _ _).symm
      refine (hrec r).trans ((fixedRecord_of_provisional hlive hprofile hprov).trans ?_)
      rw [hv]
      rfl
    · exact (hrec r).trans (fixedRecord_of_not hr)
  · intro t
    refine (afterEvents_of_ready _ hs).trans ?_
    rw [fetchCompleteBad_of_flight hf, completeBad, lendAtCompletion_eq]
    rfl
  · exact (afterEvents_of_ready _ hs).trans (congrArg _ (fetchCompleteBad_of_none hf))
  · exact (afterEvents_of_ready _ hs).trans (congrArg _ (fetchCompleteGood_of_none page hf))

end Sys2Proof.Machine
end

section
/-! PROOF. The fetch start and its target slot, the commands on the cache, and the lending of the
port (spec/02 sections 2.2, 2.5 to 2.7). -/

namespace Sys2Proof.Machine

open Sys2Proof

section

variable {s t : State} {id : ProfileId} {c : CacheNo}

/-! ### The target slot (R39) -/

theorem fetchTarget_of_lowestEmpty (hc : tget s.cache.slots c = .empty)
    (hbelow : ∀ d : CacheNo, d < c → tget s.cache.slots d ≠ .empty) :
    fetchTarget s = some c := by
  have hfirst : firstWhere s.cache.slots (fun v : CacheSlot => decide (v = .empty)) = some c :=
    firstWhere_eq_some (p := fun v : CacheSlot => decide (v = .empty)) (decide_eq_true hc)
      fun d hd => decide_eq_false (hbelow d hd)
  rw [fetchTarget, hfirst]

theorem fetchTarget_of_noEmpty (h : ∀ d : CacheNo, tget s.cache.slots d ≠ .empty) :
    fetchTarget s = s.cache.lru.find? fun c => (tget s.cache.slots c).replaceable := by
  have hfirst : firstWhere s.cache.slots (fun v : CacheSlot => decide (v = .empty)) = none :=
    (firstWhere_none _ _).2 fun d => decide_eq_false (h d)
  rw [fetchTarget, hfirst]

/-- Where a slot is EMPTY the lowest such slot is the target. -/
theorem fetchTarget_of_empty (h : tget s.cache.slots c = .empty) :
    ∃ d : CacheNo, fetchTarget s = some d ∧ tget s.cache.slots d = .empty ∧
      ∀ x : CacheNo, x < d → tget s.cache.slots x ≠ .empty := by
  cases hf : firstWhere s.cache.slots (fun c => decide (c = .empty)) with
  | none => exact absurd h (of_decide_eq_false ((firstWhere_none _ _).1 hf c))
  | some d =>
    have hd : tget s.cache.slots d = .empty :=
      of_decide_eq_true (firstWhere_holds (p := fun v : CacheSlot => decide (v = .empty)) hf)
    have hlow : ∀ x : CacheNo, x < d → tget s.cache.slots x ≠ .empty :=
      fun x hx => of_decide_eq_false
        (firstWhere_lowest (p := fun v : CacheSlot => decide (v = .empty)) hf x hx)
    exact ⟨d, fetchTarget_of_lowestEmpty hd hlow, hd, hlow⟩

theorem find?_append_cons {α : Type} {p : α → Bool} {before after : List α} {x : α}
    (hx : p x = true) (hbefore : ∀ y ∈ before, p y = false) :
    (before ++ x :: after).find? p = some x := by
  rw [List.find?_append, List.find?_eq_none.2 fun y hy => Bool.eq_false_iff.1 (hbefore y hy),
    Option.none_or, List.find?_cons_of_pos hx]

/-- A target is EMPTY or replaceable. -/
theorem target_free (h : fetchTarget s = some c) :
    tget s.cache.slots c = .empty ∨ (tget s.cache.slots c).replaceable = true := by
  by_cases he : ∃ d, tget s.cache.slots d = .empty
  · obtain ⟨d, hd⟩ := he
    obtain ⟨x, hx, hempty, -⟩ := fetchTarget_of_empty hd
    rw [hx] at h
    exact .inl (Option.some.inj h ▸ hempty)
  · rw [fetchTarget_of_noEmpty fun d hd => he ⟨d, hd⟩] at h
    exact .inr (List.find?_some (p := fun c => (tget s.cache.slots c).replaceable) h)

theorem startDue_iff : startDue s = true ↔ s.cache.flight = none ∧ s.cache.port = .owned ∧
    s.cache.queue ≠ [] ∧ ∃ c, fetchTarget s = some c := by
  simp only [startDue, Bool.and_eq_true, decide_eq_true_eq, Option.isNone_iff_eq_none,
    Option.isSome_iff_exists, and_assoc]

theorem replaceable_filled (id : ProfileId) (p : List Int) (n : Nat) :
    (CacheSlot.filled id p n).replaceable = decide (n = 0) := rfl

/-! ### PRELOAD, RETRY and DROP (R43 to R45) -/

theorem profileOf_of_eq {h : Half} (hid : h.toNat = id.val) : profileOf h = some id :=
  below_eq_some.2 hid

theorem withProfile_of_gt {h : Half} (f : ProfileId → State → State) (hbig : 511 < h.toNat)
    (s : State) : withProfile h f s = respond (bare .badArgument) s := by
  rw [withProfile, show profileOf h = none from below_eq_none.2 hbig]

theorem withProfile_of_eq {h : Half} (f : ProfileId → State → State) (hid : h.toNat = id.val)
    (s : State) : withProfile h f s = f id s := by
  rw [withProfile, profileOf_of_eq hid]

theorem exec_preload (h : Half) (hs : TakesFrames s) : exec (.preload (.fields h)) s =
    .next (withProfile h preloadId (endTransaction s)) :=
  manage_of_fields h (fun h => withProfile h preloadId) hs

theorem exec_retry (h : Half) (hs : TakesFrames s) : exec (.retry (.fields h)) s =
    .next (withProfile h retryId (endTransaction s)) :=
  manage_of_fields h (fun h => withProfile h retryId) hs

theorem exec_drop_of_before (h : Half) (hs : Running s) (hr : frameRefused s = false)
    (hb : beforeDrop (.fields h) s = s) : exec (.drop (.fields h)) s =
    .next (withProfile h dropId (endTransaction s)) := by
  refine (manageAfter_of_running (beforeDrop (.fields h)) (.fields h)
    (fun h => withProfile h dropId) hs hb).trans ?_
  simp [takeFrame, hr]

theorem exec_drop (h : Half) (hs : TakesFrames s) : exec (.drop (.fields h)) s =
    .next (withProfile h dropId (endTransaction s)) :=
  exec_drop_of_before h hs.1.1 hs.2 (beforeDrop_of_none _ hs.1.2.1 (.inl hs.1.2.2))

/-- A DROP to which the start yields comes first. -/
theorem exec_drop_of_yields {h : Half} (hs : Running s) (he : NoEventDue s)
    (hr : frameRefused s = false) (hid : h.toNat = id.val) (hy : startYields id s = true) :
    exec (.drop (.fields h)) s = .next (dropId id (endTransaction s)) := by
  have hn : namedProfile (.drop (.fields h)) = some id := profileOf_of_eq hid
  rw [exec_drop_of_before h hs hr (beforeDrop_of_none _ he (.inr ((yieldsTo_of_some hn s).trans hy))),
    withProfile_of_eq _ hid]

theorem dropId_of_inFlight (h : inFlight id s = true) : dropId id s = respond (bare .inUse) s :=
  if_pos h

theorem dropId_of_absent (hf : inFlight id s = false) (h : residentSlot id s = none) :
    dropId id s = respond okResponse s := by
  rw [dropId, if_neg (Bool.eq_false_iff.1 hf), h]

theorem dropId_of_filled {p : List Int} {n : Nat} (hf : inFlight id s = false)
    (h : residentSlot id s = some c) (hc : tget s.cache.slots c = .filled id p n) :
    dropId id s = if n = 0 then respond okResponse (emptySlot c s)
      else respond (bare .inUse) s := by
  rw [dropId, if_neg (Bool.eq_false_iff.1 hf), h]
  dsimp only
  rw [hc, replaceable_filled]
  simp only [decide_eq_true_eq]

theorem liveNaming_eq_zero : liveNaming id s = 0 ↔
    ¬ ∃ r : RecordNo, isLive (getRecord r s) ∧ (getRecord r s).profile = id := by
  rw [liveNaming, List.length_eq_zero_iff, List.eq_nil_iff_forall_not_mem, not_exists]
  refine forall_congr' fun r => ?_
  rw [mem_indicesWhere, Bool.and_eq_true, decide_eq_true_eq]
  rfl

end

/-- Settles O39. -/
theorem cacheCommandsAnswerByTheirFirstCase :
    Obligations.CacheCommandsAnswerByTheirFirstCase := by
  refine ⟨fun s h id c p n hs he hr hid hy hres hc => ?_, fun s hs => ⟨fun h hbig => ⟨?_, ?_, ?_⟩,
    fun h id hid => ?_⟩⟩
  · obtain ⟨hdue, htarget⟩ := Bool.and_eq_true_iff.1 hy
    obtain ⟨hflight, hport, hqueue, -⟩ := startDue_iff.1 hdue
    rw [decide_eq_true_eq, hres] at htarget
    have hn : n = 0 := by
      rcases target_free htarget with h0 | h0
      · rw [hc] at h0
        cases h0
      · rw [hc, replaceable_filled] at h0
        exact of_decide_eq_true h0
    have hnot : inFlight id (endTransaction s) = false := by
      show inFlight id s = false
      rw [inFlight, hflight]
    have hdrop : dropId id (endTransaction s) = _ := dropId_of_filled hnot hres hc
    rw [if_pos hn] at hdrop
    refine ⟨_, (exec_drop_of_yields hs he hr hid hy).trans (congrArg _ hdrop), hn, rfl, ?_⟩
    have hempty : tget (emptySlot c (endTransaction s)).cache.slots c = .empty :=
      tget_tset_self ..
    have hd := fetchTarget_of_empty (s := respond okResponse (emptySlot c (endTransaction s))) hempty
    obtain ⟨d, hd, hdempty, hlow⟩ := hd
    exact ⟨startDue_iff.2 ⟨hflight, hport, hqueue, d, hd⟩, d, hd, hdempty, hlow⟩
  · rw [exec_preload h hs, withProfile_of_gt _ hbig, respond_endTransaction]
  · rw [exec_retry h hs, withProfile_of_gt _ hbig, respond_endTransaction]
  · rw [exec_drop h hs, withProfile_of_gt _ hbig, respond_endTransaction]
  · intro queuedNow usable named
    rw [exec_preload h hs, exec_retry h hs, exec_drop h hs, withProfile_of_eq _ hid,
      withProfile_of_eq _ hid, withProfile_of_eq _ hid]
    refine ⟨congrArg _ ?_, congrArg _ ?_, fun f hf hfid => congrArg _ ?_,
      fun hnot hres => congrArg _ (dropId_of_absent hnot hres),
      fun c p n hnot hres hc => congrArg _ (dropId_of_filled hnot hres hc)⟩
    · have hpre : preloadId id (endTransaction s) =
          if unusable id s then replied (bare .profileBad) s
          else if !absentProfile id s then replied okResponse s
          else if queueFull s then replied (bare .busy) s
          else replied okResponse queuedNow := rfl
      rw [hpre]
      simp only [queueFull_iff, Bool.not_eq_true']
    · have hre : retryId id (endTransaction s) =
          if !unusable id s then replied okResponse s
          else if liveNaming id s = 0 then replied okResponse usable
          else if queueFull s then replied (bare .busy) s
          else replied okResponse { usable with
            cache := { usable.cache with queue := s.cache.queue ++ [id] } } := rfl
      rw [hre]
      simp only [queueFull_iff, Bool.not_eq_true', liveNaming_eq_zero]
      rfl
    · refine dropId_of_inFlight ?_
      show inFlight id s = true
      rw [inFlight, hf]
      exact decide_eq_true hfid

/-! ### Lending (R47 to R49) -/

theorem reclaimed_eq (v : CacheSlot) : v.reclaimed = match v with
    | .filled id p n => if n = 0 then .empty else .filled id p n
    | x => x := by
  cases v with
  | filled id p n => by_cases hn : n = 0 <;> simp [CacheSlot.reclaimed, CacheSlot.replaceable, hn]
  | empty => rfl
  | filling id => rfl

/-- Settles O40: by the port's state and the fetch in flight. -/
theorem lendAndReclaimFollowThePortState : Obligations.LendAndReclaimFollowThePortState := by
  refine ⟨fun s => ⟨fun hp => ?_, fun hp => ⟨decide_eq_false hp, decide_eq_false hp, fun hf => ?_,
    fun f hf => ?_⟩⟩, fun s hs => ?_⟩
  · exact ⟨by rw [portSelect, hp], by rw [memoryClock, hp], decide_eq_true hp, decide_eq_true hp⟩
  · rw [portSelect, memoryClock, hf]
    cases hport : s.cache.port with
    | lent => exact absurd hport hp
    | owned => exact ⟨rfl, rfl⟩
    | lendPending => exact ⟨rfl, rfl⟩
  · rw [portSelect, memoryClock, hf]
    cases hport : s.cache.port with
    | lent => exact absurd hport hp
    | owned => exact ⟨rfl, rfl⟩
    | lendPending => exact ⟨rfl, rfl⟩
  · have hlend : exec (.lend (.fields ())) s = .next (lendPort (endTransaction s)) :=
      manage_of_fields () (fun _ => lendPort) hs
    have hreclaim : exec (.reclaim (.fields ())) s = .next (reclaimPort (endTransaction s)) :=
      manage_of_fields () (fun _ => reclaimPort) hs
    have hcache : (endTransaction s).cache = s.cache := rfl
    rw [lendPort, hcache] at hlend
    rw [reclaimPort, hcache] at hreclaim
    refine ⟨fun hp hf => ?_, fun hp hf => ?_, fun hp => ?_, fun hp => ?_, fun hp => ?_,
      fun hp => ?_⟩
    · rw [hp, hf] at hlend
      exact hlend
    · obtain ⟨f, hf⟩ := Option.ne_none_iff_exists'.1 hf
      rw [hp, hf] at hlend
      exact hlend
    · cases hport : s.cache.port with
      | owned => exact absurd hport hp
      | lent =>
        rw [hport] at hlend
        exact hlend
      | lendPending =>
        rw [hport] at hlend
        exact hlend
    · rw [hp] at hreclaim
      exact hreclaim
    · rw [hp] at hreclaim
      exact hreclaim
    · rw [hp] at hreclaim
      exact ⟨_, hreclaim, fun c => (tget_map ..).trans (reclaimed_eq _), rfl, rfl⟩

/-! ### The fetch start (R38, R39) and its read transaction (R31) -/

section

variable {s : State} {id : ProfileId} {rest : List ProfileId} {c : CacheNo}

theorem exec_fetchStart (hs : Running s) (he : NoEventDue s) :
    exec .fetchStart s = .next (fetchStart (fetchStart s)) := by
  show execFetchStart s = _
  rw [execFetchStart, afterEvents, running_of_running _ hs, takeMoment, takeRecordEvents_of_none he]

theorem fetchStart_eq (hf : s.cache.flight = none) (hp : s.cache.port = .owned)
    (hq : s.cache.queue = id :: rest) (hc : fetchTarget s = some c) :
    fetchStart s = fetchInto c id rest s := by
  rw [fetchStart, hf, hp, hq, hc]

theorem startDue_fetchInto (c : CacheNo) (id : ProfileId) (rest : List ProfileId) (s : State) :
    startDue (fetchInto c id rest s) = false := rfl

theorem nibble_high (b : Byte) : b.extractLsb' 4 4 = BitVec.ofNat 4 (b.toNat / 16) := by
  apply BitVec.eq_of_toNat_eq
  simp [Nat.shiftRight_eq_div_pow]

theorem nibble_low (b : Byte) : b.extractLsb' 0 4 = BitVec.ofNat 4 b.toNat := by
  apply BitVec.eq_of_toNat_eq
  simp

theorem laneBits_eq : ∀ n : BitVec 4, n.toNat = 8 * (laneBit n 3).toNat + 4 * (laneBit n 2).toNat +
    2 * (laneBit n 1).toNat + (laneBit n 0).toNat := by
  decide

theorem length_flatMap_nibbles (page : List Byte) :
    (page.flatMap nibbles).length = 2 * page.length := by
  induction page with
  | nil => rfl
  | cons b l ih =>
    rw [List.flatMap_cons, List.length_append, ih, List.length_cons]
    simp only [nibbles, List.length_cons, List.length_nil]
    omega

/-- The instruction and the address of a page, nibble by nibble. -/
theorem readInstruction_nibbles (id : ProfileId) :
    (readInstruction id).flatMap nibbles = 0x3 :: 0xE ::
      [5, 4, 3, 2, 1, 0].map (fun i : Nat => BitVec.ofNat 4 (id.val * 1024 / 16 ^ i)) := by
  have hpart : ∀ (n start : Nat), ((BitVec.ofNat 24 n).extractLsb' start 8).toNat =
      n % 2 ^ 24 / 2 ^ start % 2 ^ 8 := fun n start => by
    simp [Nat.shiftRight_eq_div_pow]
  have hid := id.isLt
  simp only [readInstruction, pageAddress, List.flatMap_cons, List.flatMap_nil, nibbles, nibble_high,
    nibble_low, hpart, List.map_cons, List.map_nil, List.cons_append, List.nil_append,
    List.append_nil]
  congr 1
  congr 1
  generalize id.val * 1024 = n at *
  simp only [List.cons.injEq, and_true]
  refine ⟨?_, ?_, ?_, ?_, ?_, ?_⟩ <;> apply BitVec.eq_of_toNat_eq <;>
    simp only [BitVec.toNat_ofNat] <;> omega

end

/-- Settles O37. -/
theorem fetchesStartIntoTheirTargetSlot : Obligations.FetchesStartIntoTheirTargetSlot := by
  refine ⟨fun s hs he => ⟨fun id rest c hf hp hq hc => ?_, fun hno => ?_⟩,
    fun id page => ⟨?_, ?_⟩, laneBits_eq⟩
  · intro t
    have htarget : fetchTarget s = some c := by
      rcases hc with ⟨hempty, hlow⟩ | ⟨hno, before, after, hlru, hc, hbefore⟩
      · exact fetchTarget_of_lowestEmpty hempty hlow
      · rw [fetchTarget_of_noEmpty hno, hlru]
        exact find?_append_cons hc hbefore
    have hstart : fetchStart s = t := fetchStart_eq hf hp hq htarget
    have hdue : startDue t = false := rfl
    have hmoment : takeMoment s = t := by
      rw [takeMoment, takeRecordEvents_of_none he, hstart]
    have hsdue : startDue s = true :=
      startDue_iff.2 ⟨hf, hp, hq ▸ List.cons_ne_nil id rest, c, htarget⟩
    refine ⟨?_, hsdue, hdue, fun cmd h1 h2 hy => ?_, fun hr => ?_⟩
    · rw [exec_fetchStart hs he, hstart, fetchStart_of_notDue hdue]
    · rw [← hmoment]
      refine (exec_eq_exec_takeMoment hs h1 h2).2 ?_
      rw [takeRecordEvents_of_none he]
      exact hy
    · have hready : TakesFrames t := ⟨⟨hs, he, hdue⟩, hr⟩
      have hlend : exec (.lend (.fields ())) s = exec (.lend (.fields ())) t := by
        rw [← hmoment]
        exact (exec_eq_exec_takeMoment (c := .lend (.fields ())) hs
          (fun r => ⟨nofun, nofun, nofun⟩) nofun).2 (yieldsTo_of_none rfl _)
      rw [hlend]
      exact (lendAndReclaimFollowThePortState.2 t hready).2.1 hp nofun
  · have hnot : startDue s = false := by
      refine Bool.eq_false_iff.2 fun hdue => ?_
      obtain ⟨hf, hp, hq, c, hc⟩ := startDue_iff.1 hdue
      rcases hno with h | h | h | ⟨hempty, hlru⟩
      · exact h hf
      · exact h hp
      · exact hq h
      · rw [fetchTarget_of_noEmpty hempty] at hc
        have hrep := List.find?_some (p := fun c => (tget s.cache.slots c).replaceable) hc
        exact absurd hrep (Bool.eq_false_iff.1 (hlru c (List.mem_of_find?_eq_some hc)))
    rw [exec_fetchStart hs he, fetchStart_of_notDue hnot, fetchStart_of_notDue hnot]
  · rw [readTransaction, readInstruction_nibbles]
    simp only [List.length_append, List.length_map, List.length_replicate,
      length_flatMap_nibbles]
    rfl
  · rw [readTransaction, readInstruction_nibbles, List.map_flatMap]
    have hbyte : ∀ b : Byte, (nibbles b).map LaneClock.input =
        [.input (BitVec.ofNat 4 (b.toNat / 16)), .input (BitVec.ofNat 4 b.toNat)] := fun b => by
      rw [nibbles, nibble_high, nibble_low]
      rfl
    simp only [hbyte]
    rfl

end Sys2Proof.Machine
end

section
/-! PROOF. The writing commands of the Coupling Store (spec/03): the validation of a list, the
commands that wait, and CAPTURE. -/

namespace Sys2Proof.Machine

open Sys2Proof

section

variable {s : State} {source : Slot} {f : ListFault}

/-! ### The validation of a list (R56) -/

/-- The target of the entry at a place of a list as written. -/
def targetAt (l : List RawEntry) (i : Nat) : Nat := (l[i]?.map fun e => e.target.toNat).getD 0

/-- The fault of the entry at a place, given the target before the list. -/
def faultAt (source : Slot) (before : Option Nat) (l : List RawEntry) (i : Nat) :
    Option ListFault :=
  entryFault source (if i = 0 then before else some (targetAt l (i - 1))) (targetAt l i)

theorem targetAt_zero (e : RawEntry) (l : List RawEntry) : targetAt (e :: l) 0 = e.target.toNat :=
  rfl

theorem targetAt_succ (e : RawEntry) (l : List RawEntry) (i : Nat) :
    targetAt (e :: l) (i + 1) = targetAt l i := rfl

theorem faultAt_zero (before : Option Nat) (e : RawEntry) (l : List RawEntry) :
    faultAt source before (e :: l) 0 = entryFault source before e.target.toNat := rfl

theorem faultAt_succ (before : Option Nat) (e : RawEntry) (l : List RawEntry) (i : Nat) :
    faultAt source before (e :: l) (i + 1) = faultAt source (some e.target.toNat) l i := by
  cases i <;> rfl

theorem validateFrom_of_fault {before : Option Nat} {e : RawEntry} {l : List RawEntry} (pos : Nat)
    (h : entryFault source before e.target.toNat = some f) :
    validateFrom source pos before (e :: l) = .error (f, some pos) := by
  rw [validateFrom, h]

/-- An entry without fault hands on to those after it. -/
theorem validateFrom_of_good {before : Option Nat} {e : RawEntry} {l : List RawEntry} (pos : Nat)
    (h : entryFault source before e.target.toNat = none) :
    ∃ t : Target, t.val = e.target.toNat ∧ validateFrom source pos before (e :: l) =
      (validateFrom source (pos + 1) (some e.target.toNat) l).map (entryOf t e :: ·) := by
  have hlt : e.target.toNat < 112 := (entryFault_none h).1
  have ht : targetOf e.target = some ⟨e.target.toNat, hlt⟩ := below_eq_some.2 rfl
  refine ⟨⟨e.target.toNat, hlt⟩, rfl, ?_⟩
  rw [validateFrom, h, ht]
  dsimp only
  cases validateFrom source (pos + 1) (some e.target.toNat) l <;> rfl

theorem validateFrom_error {l : List RawEntry} {i : Nat} {pos : Nat} {before : Option Nat}
    (hi : i < l.length) (hf : faultAt source before l i = some f)
    (hbelow : ∀ j < i, faultAt source before l j = none) :
    validateFrom source pos before l = .error (f, some (pos + i)) := by
  induction l generalizing i pos before with
  | nil => exact absurd hi (Nat.not_lt_zero i)
  | cons e l ih =>
    cases i with
    | zero => exact validateFrom_of_fault pos hf
    | succ i =>
      obtain ⟨t, -, ht⟩ := validateFrom_of_good (before := before) (l := l) pos (hbelow 0 (Nat.succ_pos i))
      rw [faultAt_succ] at hf
      rw [ht, ih (Nat.lt_of_succ_lt_succ hi) hf fun j hj => by
        rw [← faultAt_succ]
        exact hbelow (j + 1) (Nat.succ_lt_succ hj)]
      rw [show pos + 1 + i = pos + (i + 1) by omega]
      rfl

theorem entryOf_fields (t : Target) (e : RawEntry) (ht : t.val = e.target.toNat) :
    ((entryOf t e).target.val, (entryOf t e).gain, (entryOf t e).delay.val) =
      (e.target.toNat, e.gain.toInt, min e.delay.toNat 15) := by
  rw [entryOf, ht]
  rfl

theorem validateFrom_good {l : List RawEntry} {pos : Nat} {before : Option Nat}
    (h : ∀ i < l.length, faultAt source before l i = none) :
    ∃ out, validateFrom source pos before l = .ok out ∧
      out.map (fun e => (e.target.val, e.gain, e.delay.val)) =
        l.map fun e => (e.target.toNat, e.gain.toInt, min e.delay.toNat 15) := by
  induction l generalizing pos before with
  | nil => exact ⟨[], rfl, rfl⟩
  | cons e l ih =>
    obtain ⟨t, ht, hval⟩ := validateFrom_of_good (before := before) (l := l) pos (h 0 (Nat.succ_pos _))
    obtain ⟨out, hout, hmap⟩ := ih (pos := pos + 1) (before := some e.target.toNat) fun i hi => by
      rw [← faultAt_succ]
      exact h (i + 1) (Nat.succ_lt_succ hi)
    refine ⟨entryOf t e :: out, by rw [hval, hout]; rfl, ?_⟩
    rw [List.map_cons, List.map_cons, hmap, entryOf_fields t e ht]

/-- The fault of an entry, as R56's table lists it. -/
theorem faultAt_none_eq (source : Slot) (l : List RawEntry) (i : Nat) :
    faultAt source none l i =
      if 112 ≤ targetAt l i then some ListFault.range
      else if targetAt l i = source.val then some ListFault.self
      else if 0 < i ∧ targetAt l i = targetAt l (i - 1) then some ListFault.duplicate
      else if 0 < i ∧ targetAt l i < targetAt l (i - 1) then some ListFault.order
      else none := by
  unfold faultAt entryFault
  cases i with
  | zero => simp
  | succ i => simp [eq_comm]

/-! ### LIST-WRITE when it is taken (R55 to R57) -/

theorem exec_listWrite (a : ListWriteArgs) (hs : TakesFrames s) :
    exec (.listWrite (.fields a)) s = .next (listWrite a (endTransaction s)) :=
  manage_of_fields a listWrite hs

theorem listWrite_of_badSource {a : ListWriteArgs} (h : 95 < a.source.toNat) :
    listWrite a s = respond (bare .badArgument) s := by
  rw [listWrite, slotOf_of_gt h]

theorem listWrite_of_pending {a : ListWriteArgs} (h : a.source.toNat = source.val)
    (hp : s.store.swapPending = true) : listWrite a s = respond (bare .swapPending) s := by
  rw [listWrite, slotOf_of_eq h]
  exact if_pos hp

theorem listWrite_of_error {a : ListWriteArgs} {pos : Option Nat} (h : a.source.toNat = source.val)
    (hp : s.store.swapPending = false) (hv : validateList source a.entries = .error (f, pos)) :
    listWrite a s = respond ⟨.badList, .badList f pos⟩ s := by
  rw [listWrite, slotOf_of_eq h]
  dsimp only
  rw [hp, hv]
  rfl

theorem listWrite_of_ok {a : ListWriteArgs} {l : List Entry} (h : a.source.toNat = source.val)
    (hp : s.store.swapPending = false) (hv : validateList source a.entries = .ok l) :
    listWrite a s = if poolExceeded (s.store.bank s.store.staging) source l.length then
        respond (bare .poolFull) s
      else execute (.listWrite source l (clippedDelays a.entries)) s := by
  rw [listWrite, slotOf_of_eq h]
  dsimp only
  rw [hp, hv]
  rfl

theorem validateList_of_long {l : List RawEntry} (h : 24 < l.length) :
    validateList source l = .error (.length, none) := if_pos h

theorem validateList_of_short {l : List RawEntry} (h : l.length ≤ 24) :
    validateList source l = validateFrom source 0 none l := if_neg (not_lt.2 h)

theorem poolExceeded_iff (b : Bank) (source : Slot) (n : Nat) : poolExceeded b source n = true ↔
    1536 < b.pool - (tget b.lists source).length + n := decide_eq_true_iff

end

/-- Settles O41: the faults of a list are those of its entries, the first decides, and a list
without any holds its entries as written. -/
theorem listWritesAreJudgedWhenTaken : Obligations.ListWritesAreJudgedWhenTaken := by
  intro a s hs
  refine ⟨fun h => ?_, fun source hsource => ?_⟩
  · rw [exec_listWrite a hs, listWrite_of_badSource h, respond_endTransaction]
  · intro target fault bank
    have hfault : ∀ i, faultAt source none a.entries i = fault i := faultAt_none_eq source a.entries
    refine ⟨fun hp => ?_, fun hp hlen => ?_, fun hp hlen => ⟨fun i f hi hf hbelow => ?_,
      fun hgood => ?_⟩⟩
    · rw [exec_listWrite a hs, listWrite_of_pending hsource (by exact hp), respond_endTransaction]
    · rw [exec_listWrite a hs, listWrite_of_error hsource (by exact hp) (validateList_of_long hlen),
        respond_endTransaction]
    · have hv := validateFrom_error (pos := 0) hi ((hfault i).trans hf)
        fun j hj => (hfault j).trans (hbelow j hj)
      rw [Nat.zero_add, ← validateList_of_short hlen] at hv
      rw [exec_listWrite a hs, listWrite_of_error hsource (by exact hp) hv, respond_endTransaction]
    · obtain ⟨l, hl, hmap⟩ := validateFrom_good (pos := 0)
        fun i hi => (hfault i).trans (hgood i hi)
      rw [← validateList_of_short hlen] at hl
      have hlength : l.length = a.entries.length := by
        rw [← List.length_map (f := fun e : Entry => (e.target.val, e.gain, e.delay.val)), hmap,
          List.length_map]
      have hexec := exec_listWrite a hs
      rw [listWrite_of_ok (s := endTransaction s) hsource hp hl, hlength] at hexec
      have hpool := poolExceeded_iff bank source a.entries.length
      refine ⟨fun hfull => ?_, fun hroom => ⟨l, hmap, ?_⟩⟩
      · rw [show poolExceeded ((endTransaction s).store.bank (endTransaction s).store.staging)
          source a.entries.length = true from hpool.2 hfull, if_pos rfl] at hexec
        exact hexec
      · rw [show poolExceeded ((endTransaction s).store.bank (endTransaction s).store.staging)
          source a.entries.length = false from
            Bool.eq_false_iff.2 fun h => absurd (hpool.1 h) (not_lt.2 hroom),
          if_neg Bool.false_ne_true, clippedDelays, ← List.countP_eq_length_filter] at hexec
        exact hexec

end Sys2Proof.Machine
end

section
/-! PROOF. The management commands that wait for the arbiter, and CAPTURE's grants (R28, R57 to R59,
R64). -/

namespace Sys2Proof.Machine

open Sys2Proof

section

variable {s : State} {source : Slot}

/-! ### When they are taken -/

theorem bankOf_of_le : ∀ b : Byte, b.toNat ≤ 1 → bankOf b = some (if b = 0 then .a else .b) := by
  decide

theorem bankOf_of_gt : ∀ b : Byte, 1 < b.toNat → bankOf b = none := by
  decide

theorem listRead_of_bad {a : ListReadArgs} (h : 1 < a.bank.toNat ∨ 95 < a.source.toNat) :
    listRead a s = respond (bare .badArgument) s := by
  unfold listRead
  rcases h with h | h
  · rw [bankOf_of_gt _ h]
  · rw [slotOf_of_gt h]
    cases bankOf a.bank <;> rfl

theorem listRead_of_named {a : ListReadArgs} (h : a.bank.toNat ≤ 1)
    (hsource : a.source.toNat = source.val) :
    listRead a s = execute (.listRead (if a.bank = 0 then .a else .b) source) s := by
  rw [listRead, bankOf_of_le _ h, slotOf_of_eq hsource]

theorem optionalSlotOf_of_bad {choice b : Byte}
    (h : 1 < choice.toNat ∨ (choice = 1 ∧ 95 < b.toNat)) : optionalSlotOf choice b = none := by
  rcases h with h | ⟨rfl, h⟩
  · unfold optionalSlotOf
    split
    · omega
    · omega
    · rfl
  · rw [optionalSlotOf, slotOf_of_gt h]
    rfl

theorem sourceList_of_bad {a : SourceListArgs} (h : 127 < a.first.toNat ∨ 1 < a.slotChoice.toNat ∨
    (a.slotChoice = 1 ∧ 95 < a.slot.toNat)) :
    sourceList a s = respond (bare .badArgument) s := by
  unfold sourceList
  rcases h with h | h
  · rw [show recordOf a.first = none from below_eq_none.2 h]
  · rw [optionalSlotOf_of_bad h]
    cases recordOf a.first <;> rfl

theorem optionalSlotOf_of_named {choice b : Byte} {slot : Option Slot}
    (h : choice = 0 ∧ slot = none ∨ choice = 1 ∧ ∃ x : Slot, slot = some x ∧ b.toNat = x.val) :
    optionalSlotOf choice b = some slot := by
  rcases h with ⟨rfl, rfl⟩ | ⟨rfl, x, rfl, hx⟩
  · rfl
  · rw [optionalSlotOf, slotOf_of_eq hx]
    rfl

theorem sourceList_of_named {a : SourceListArgs} {first : RecordNo} {slot : Option Slot}
    (h : a.first.toNat = first.val) (hslot : a.slotChoice = 0 ∧ slot = none ∨
      a.slotChoice = 1 ∧ ∃ x : Slot, slot = some x ∧ a.slot.toNat = x.val) :
    sourceList a s = execute (.sourceList first slot) s := by
  rw [sourceList, show recordOf a.first = some first from below_eq_some.2 h,
    optionalSlotOf_of_named hslot]

/-! ### When they are granted (R64) -/

theorem listWriteGrant_of_free {l : List Entry} {clipped : Nat}
    (hm : portMayBeGranted s = true) (he : s.port.executing = some (.listWrite source l clipped)) :
    listWriteGrant s = finish (okWith (.listWritten s.store.staging l.length clipped
        ((s.store.bank s.store.staging).replaceList source l).pool))
        (portAccess (writeStaging source l s)) := by
  rw [listWriteGrant, he]
  exact if_pos hm

theorem listReadGrant_of_free {name : BankName} (hm : portMayBeGranted s = true)
    (he : s.port.executing = some (.listRead name source)) :
    listReadGrant s = finish (listReadResponse name source s) (portAccess s) := by
  rw [listReadGrant, he]
  exact if_pos hm

theorem sourceListGrant_of_free {first : RecordNo} {slot : Option Slot}
    (hm : portMayBeGranted s = true) (he : s.port.executing = some (.sourceList first slot)) :
    sourceListGrant s = finish (sourceListResponse first slot s) (portAccess s) := by
  rw [sourceListGrant, he]
  exact if_pos hm

theorem captureEmptyGrant_of_free (hm : portMayBeGranted s = true)
    (he : s.port.executing = some .captureEmpty) : captureEmptyGrant s = execute (.captureCopy 0)
      (portAccess (setStore (s.store.setBank s.store.staging emptyBank) s)) := by
  rw [captureEmptyGrant, he]
  exact if_pos hm

theorem captureCopyGrant_of_free (hm : portMayBeGranted s = true)
    (he : s.port.executing = some (.captureCopy source)) : captureCopyGrant s =
      match below 96 (source.val + 1) with
      | some next => execute (.captureCopy next) (copyList source s)
      | none => finish (capturedResponse (copyList source s)) (copyList source s) := by
  rw [captureCopyGrant, he]
  exact if_pos hm

/-- While another requester waits, no access of the Management Port is granted. -/
theorem grants_of_waiting (hm : portMayBeGranted s = false) : listWriteGrant s = s ∧
    listReadGrant s = s ∧ sourceListGrant s = s ∧ captureEmptyGrant s = s ∧
    captureCopyGrant s = s := by
  have hno : ¬ portMayBeGranted s = true := Bool.eq_false_iff.1 hm
  refine ⟨?_, ?_, ?_, ?_, ?_⟩
  · unfold listWriteGrant
    split
    · exact if_neg hno
    · rfl
  · unfold listReadGrant
    split
    · exact if_neg hno
    · rfl
  · unfold sourceListGrant
    split
    · exact if_neg hno
    · rfl
  · unfold captureEmptyGrant
    split
    · exact if_neg hno
    · rfl
  · unfold captureCopyGrant
    split
    · exact if_neg hno
    · rfl

theorem portMayBeGranted_of_free
    (hp : s.prediction.gap = true ∨ ∀ e ∈ s.prediction.evaluations, e.waiting = [])
    (ha : s.adaptation.gap = true ∨ s.adaptation.steps = []) : portMayBeGranted s = true := by
  rw [portMayBeGranted_iff]
  constructor
  · refine Bool.eq_false_iff.2 fun h => ?_
    obtain ⟨⟨e, he, hw⟩, hgap⟩ := (predictionWaits_iff s).1 h
    rcases hp with hp | hp
    · rw [hp] at hgap
      cases hgap
    · exact hw (hp e he)
  · refine Bool.eq_false_iff.2 fun h => ?_
    obtain ⟨hsteps, hgap⟩ := (adaptationWaits_iff s).1 h
    rcases ha with ha | ha
    · rw [ha] at hgap
      cases hgap
    · exact hsteps ha

theorem not_portMayBeGranted_of_waiting
    (h : (s.prediction.gap = false ∧ ∃ e ∈ s.prediction.evaluations, e.waiting ≠ []) ∨
      (s.adaptation.gap = false ∧ s.adaptation.steps ≠ [])) : portMayBeGranted s = false := by
  refine Bool.eq_false_iff.2 fun hm => ?_
  obtain ⟨hp, ha⟩ := (portMayBeGranted_iff s).1 hm
  rcases h with ⟨hgap, hw⟩ | ⟨hgap, hsteps⟩
  · rw [(predictionWaits_iff s).2 ⟨hw, hgap⟩] at hp
    cases hp
  · rw [(adaptationWaits_iff s).2 ⟨hsteps, hgap⟩] at ha
    cases ha

/-! ### SOURCE-LIST's response (R28) -/

theorem listable_eq (first : RecordNo) (slot : Option Slot) (s : State) : listable first slot s =
    (List.finRange 128).filter fun r : RecordNo => decide (first ≤ r ∧
      isLive (getRecord r s) ∧ (slot = none ∨ slot = some (getRecord r s).slot)) := by
  rw [listable, liveRecords, indicesWhere, List.filter_filter]
  refine List.filter_congr fun r _ => Bool.eq_iff_iff.2 ?_
  cases slot with
  | none =>
    simp only [Bool.and_eq_true, decide_eq_true_eq, true_or, and_true]
    rfl
  | some x =>
    simp only [Bool.and_eq_true, decide_eq_true_eq, reduceCtorEq, false_or, Option.some.injEq]
    refine ⟨fun ⟨⟨hf, hx⟩, hl⟩ => ⟨hf, hl, hx.symm⟩, fun ⟨hf, hl, hx⟩ => ⟨⟨hf, hx.symm⟩, hl⟩⟩

theorem continuation_eq (l : List RecordNo) : continuation l =
    if 32 < l.length then (l[31]?).map fun r => r.val + 1 else none := by
  unfold continuation
  by_cases h : 32 < l.length
  · rw [if_neg (not_le.2 h), if_pos h, List.getLast?_eq_getElem?, List.length_take,
      min_eq_left h.le, List.getElem?_take_of_lt (by decide)]
  · rw [if_pos (not_lt.1 h), if_neg h]

end

/-- Settles O42. -/
theorem waitingCommandsBeginAndAreGrantedLast :
    Obligations.WaitingCommandsBeginAndAreGrantedLast := by
  refine ⟨fun s hs => ?_, fun s hs => ⟨fun hp ha => ?_, fun h => ?_⟩⟩
  · have hread : ∀ a, exec (.listRead (.fields a)) s = .next (listRead a (endTransaction s)) :=
      fun a => manage_of_fields a listRead hs
    have hlist : ∀ a, exec (.sourceList (.fields a)) s = .next (sourceList a (endTransaction s)) :=
      fun a => manage_of_fields a sourceList hs
    have hcapture : exec (.capture (.fields ())) s = .next (capture (endTransaction s)) :=
      manage_of_fields () (fun _ => capture) hs
    refine ⟨fun a h => ?_, fun a source h hsource => ?_, fun a h => ?_,
      fun a first slot h hslot => ?_, fun h => ?_, fun h => ?_⟩
    · rw [hread, listRead_of_bad h, respond_endTransaction]
    · rw [hread, listRead_of_named h hsource, execute_endTransaction]
    · rw [hlist, sourceList_of_bad h, respond_endTransaction]
    · rw [hlist, sourceList_of_named h hslot, execute_endTransaction]
    · exact hcapture.trans (congrArg _ (if_pos h))
    · exact hcapture.trans (congrArg _ (if_neg (Bool.eq_false_iff.1 h)))
  · have hm := portMayBeGranted_of_free hp ha
    refine ⟨fun source l clipped he => ?_, fun name source he => ?_, fun first slot he => ?_⟩
    · exact (afterEvents_of_ready _ hs).trans (congrArg _ (listWriteGrant_of_free hm he))
    · exact (afterEvents_of_ready _ hs).trans (congrArg _ (listReadGrant_of_free hm he))
    · intro numbers
      have hlist : listable first slot s = numbers := listable_eq first slot s
      refine (afterEvents_of_ready _ hs).trans ?_
      rw [sourceListGrant_of_free hm he, sourceListResponse, hlist, continuation_eq]
      rfl
  · obtain ⟨h1, h2, h3, h4, h5⟩ := grants_of_waiting (not_portMayBeGranted_of_waiting h)
    exact ⟨(afterEvents_of_ready _ hs).trans (congrArg _ h1),
      (afterEvents_of_ready _ hs).trans (congrArg _ h2),
      (afterEvents_of_ready _ hs).trans (congrArg _ h3),
      (afterEvents_of_ready _ hs).trans (congrArg _ h4),
      (afterEvents_of_ready _ hs).trans (congrArg _ h5)⟩

/-- Settles O43: each grant writes the staging bank alone. -/
theorem captureEmptiesThenCopiesListByList : Obligations.CaptureEmptiesThenCopiesListByList := by
  intro s hs ha hp
  have hm := portMayBeGranted_of_free hp ha
  have hactive : ∀ b : Bank, (s.store.setBank s.store.active.other b).bank s.store.active =
      s.store.bank s.store.active := fun b => by
    have := bank_setBank_other s.store s.store.active.other b
    rwa [other_other] at this
  intro staging
  refine ⟨fun he => ?_, fun source he => ?_⟩
  · refine ⟨_, (afterEvents_of_ready _ hs).trans (congrArg _ (captureEmptyGrant_of_free hm he)),
      rfl, fun x => ?_, ?_, hactive _, active_setBank .., swapPending_setBank .., rfl⟩
    · refine (congrArg (fun b : Bank => tget b.lists x) (bank_setBank_self ..)).trans ?_
      exact tget_replicate ..
    · exact congrArg Bank.pool (bank_setBank_self ..)
  · intro l
    have hexec : exec .captureCopyGrant s = .next (captureCopyGrant s) :=
      afterEvents_of_ready _ hs
    rw [captureCopyGrant_of_free hm he] at hexec
    have hbank : (copyList source s).store.bank staging =
        (s.store.bank staging).replaceList source l := bank_setBank_self ..
    have hlist : ∀ x, tget ((copyList source s).store.bank staging).lists x =
        if x = source then l else tget (s.store.bank staging).lists x := fun x => by
      rw [hbank]
      exact tget_tset ..
    have hpool := congrArg Bank.pool hbank
    cases hnext : below 96 (source.val + 1) with
    | none =>
      rw [hnext] at hexec
      refine ⟨_, hexec, hlist, hpool, hactive _, active_setBank .., swapPending_setBank ..,
        fun next hn => ?_, fun _ => ?_, rfl⟩
      · exact absurd (below_eq_none.1 hnext) (by have := next.isLt; omega)
      · show ({ s.port with executing := none, held := capturedResponse (copyList source s) } :
          ManagementPort) = _
        rw [capturedResponse, CouplingStore.staging,
          show (copyList source s).store.active = s.store.active from active_setBank ..]
        rfl
    | some next' =>
      rw [hnext] at hexec
      refine ⟨_, hexec, hlist, hpool, hactive _, active_setBank .., swapPending_setBank ..,
        fun next hn => ?_, fun h95 => ?_, rfl⟩
      · obtain rfl : next = next' := Fin.ext (hn.trans (below_eq_some.1 hnext))
        rfl
      · exact absurd (below_eq_some.1 hnext) (by have := next'.isLt; omega)

end Sys2Proof.Machine
end

section
/-! PROOF. What an evaluation forms (spec/04 sections 4.2 to 4.4): the predicted sums and the drives
with their bounds, the evaluation record, and the slot's block. -/

namespace Sys2Proof.Machine

open Sys2Proof

/-! ### Rounding -/

/-- Division by a positive divisor, halves up, as a floor. -/
theorem divNearest_eq_fdiv (x : Int) {b : Int} (hb : 0 ≤ b) :
    divNearest x b = (x + b / 2).fdiv b :=
  (Int.fdiv_eq_ediv_of_nonneg _ hb).symm

/-- A sum over a list, by the bounds of its terms. -/
theorem sum_bounds {l : List Int} {lo hi : Int} (h : ∀ x ∈ l, lo ≤ x ∧ x ≤ hi) :
    l.length * lo ≤ l.sum ∧ l.sum ≤ l.length * hi := by
  induction l with
  | nil => simp
  | cons x l ih =>
    have hx := h x List.mem_cons_self
    have hl := ih fun y hy => h y (List.mem_cons_of_mem x hy)
    rw [List.sum_cons, List.length_cons]
    push_cast
    constructor <;> linarith [hx.1, hx.2, hl.1, hl.2]

theorem tdiv_eight_bounds {x lo hi : Int} (h1 : 8 * lo ≤ x)
    (h2 : x ≤ 8 * hi) : lo ≤ x.tdiv 8 ∧ x.tdiv 8 ≤ hi := by
  rcases le_total 0 x with h | h
  · rw [Int.tdiv_eq_ediv_of_nonneg h]
    omega
  · obtain ⟨y, rfl⟩ : ∃ y, x = -y := ⟨-x, (neg_neg x).symm⟩
    rw [Int.neg_tdiv, Int.tdiv_eq_ediv_of_nonneg (by omega)]
    omega

/-- A 16-bit signed value. -/
def Word16 (x : Int) : Prop := -32768 ≤ x ∧ x ≤ 32767

theorem word16_zero : Word16 0 := ⟨by decide, by decide⟩

/-- The product of two 16-bit values. -/
theorem Word16.mul {p a : Int} (hp : Word16 p) (ha : Word16 a) :
    -1073709056 ≤ p * a ∧ p * a ≤ 1073741824 := by
  obtain ⟨hp1, hp2⟩ := hp
  obtain ⟨ha1, ha2⟩ := ha
  constructor
  · rcases le_total 0 p with h | h <;> nlinarith
  · rcases le_total 0 p with h | h <;> nlinarith

/-- The product of three 16-bit values. -/
theorem Word16.mul_mul {p a g : Int} (hp : Word16 p) (ha : Word16 a) (hg : Word16 g) :
    -35184372088832 ≤ p * a * g ∧ p * a * g ≤ 35183298347008 := by
  obtain ⟨hb1, hb2⟩ := hp.mul ha
  obtain ⟨hg1, hg2⟩ := hg
  generalize p * a = b at *
  constructor
  · rcases le_total 0 b with h | h <;> nlinarith
  · rcases le_total 0 b with h | h <;> nlinarith

section

variable {e : Evaluation} {r : SnapRecord} {c : Coupling} {n : Time}

/-! ### Terms and drives (R77 to R80, R89) -/

theorem contributes_iff : contributes r c n = true ↔
    0 ≤ elapsed r c n ∧ elapsed r c n < r.length ∧ Before (delayed c n) r.endPoint := by
  simp only [contributes, Bool.and_eq_true, decide_eq_true_eq, and_assoc]

theorem profileSample_eq (r : SnapRecord) (c : Coupling) (n : Time) :
    profileSample r c n = (r.samples.getD []).getD (elapsed r c n).toNat 0 := by
  rw [profileSample]
  cases r.samples <;> rfl

theorem profileSample_of_none (h : r.samples = none) : profileSample r c n = 0 := by
  rw [profileSample, h]

theorem word16_profileSample
    (h : ∀ p, r.samples = some p → ∀ x ∈ p, -32768 ≤ x ∧ x ≤ 32767) :
    Word16 (profileSample r c n) := by
  rw [profileSample_eq]
  cases hs : r.samples with
  | none => exact word16_zero
  | some p =>
    rw [Option.getD_some, List.getD_eq_getElem?_getD]
    cases hx : p[(elapsed r c n).toNat]? with
    | none => exact word16_zero
    | some x => exact h p hs x (List.mem_of_getElem? hx)

theorem term_eq (n : Time) (x : SnapRecord × Coupling) : term n x =
    if 0 ≤ elapsed x.1 x.2 n ∧ elapsed x.1 x.2 n < x.1.length ∧
        Before (delayed x.2 n) x.1.endPoint then
      (((x.1.samples.getD []).getD (elapsed x.1 x.2 n).toNat 0 * x.1.scale * x.2.gain) +
        2 ^ 28).fdiv (2 ^ 29)
    else 0 := by
  unfold term
  refine if_congr contributes_iff ?_ rfl
  rw [divNearest_eq_fdiv _ (by decide), profileSample_eq]
  rfl

theorem term_bounds {x : SnapRecord × Coupling} (hscale : Word16 x.1.scale)
    (hsample : ∀ p, x.1.samples = some p → ∀ y ∈ p, -32768 ≤ y ∧ y ≤ 32767)
    (hgain : Word16 x.2.gain) : -65536 ≤ term n x ∧ term n x ≤ 65534 := by
  unfold term
  split
  · obtain ⟨hlo, hhi⟩ := (word16_profileSample (c := x.2) (n := n) hsample).mul_mul hscale hgain
    unfold divNearest
    omega
  · decide

theorem unscaled_eq (n : Time) (r : SnapRecord) (c : Coupling) : unscaled n r c =
    if 0 ≤ elapsed r c n ∧ elapsed r c n < r.length ∧ Before (delayed c n) r.endPoint then
      ((r.samples.getD []).getD (elapsed r c n).toNat 0 * r.scale + 2 ^ 14).fdiv (2 ^ 15)
    else 0 := by
  unfold unscaled
  refine if_congr contributes_iff ?_ rfl
  rw [divNearest_eq_fdiv _ (by decide), profileSample_eq]
  rfl

theorem unscaled_bounds (hscale : Word16 r.scale)
    (hsample : ∀ p, r.samples = some p → ∀ y ∈ p, -32768 ≤ y ∧ y ≤ 32767) :
    -32767 ≤ unscaled n r c ∧ unscaled n r c ≤ 32768 := by
  unfold unscaled
  split
  · obtain ⟨hlo, hhi⟩ := (word16_profileSample (c := c) (n := n) hsample).mul hscale
    unfold divNearest
    omega
  · decide

theorem unscaled_of_none (h : r.samples = none) : unscaled n r c = 0 := by
  unfold unscaled
  rw [profileSample_of_none h, zero_mul]
  exact ite_self 0

theorem frameDrive_eq (f : Frame) (r : SnapRecord) (c : Coupling) : frameDrive f r c =
    (unscaled (sampleTime f 0) r c + unscaled (sampleTime f 1) r c +
      unscaled (sampleTime f 2) r c + unscaled (sampleTime f 3) r c +
      unscaled (sampleTime f 4) r c + unscaled (sampleTime f 5) r c +
      unscaled (sampleTime f 6) r c + unscaled (sampleTime f 7) r c).tdiv 8 := by
  have hrange : List.range 8 = [0, 1, 2, 3, 4, 5, 6, 7] := rfl
  rw [frameDrive, divTowardZero, hrange]
  simp only [List.map_cons, List.map_nil, List.sum_cons, List.sum_nil, add_zero, add_assoc]

theorem frameDrive_bounds (f : Frame) (hscale : Word16 r.scale)
    (hsample : ∀ p, r.samples = some p → ∀ y ∈ p, -32768 ≤ y ∧ y ≤ 32767) :
    -32767 ≤ frameDrive f r c ∧ frameDrive f r c ≤ 32768 := by
  have hu := fun i => unscaled_bounds (c := c) (n := sampleTime f i) hscale hsample
  have h0 := hu 0; have h1 := hu 1; have h2 := hu 2; have h3 := hu 3
  have h4 := hu 4; have h5 := hu 5; have h6 := hu 6; have h7 := hu 7
  rw [frameDrive_eq]
  exact tdiv_eight_bounds (by omega) (by omega)

/-! ### Contributors (R76) -/

/-- A contributor is a record of the snapshot whose source's read returned an entry. -/
theorem mem_contributorsOf {x : SnapRecord × Coupling} (h : x ∈ contributorsOf e) :
    x.1 ∈ e.snap.records ∧ couplingOf e.done x.1.slot = some x.2 := by
  obtain ⟨r, hr, hx⟩ := List.mem_filterMap.1 h
  obtain ⟨c, hc, rfl⟩ := Option.map_eq_some_iff.1 hx
  exact ⟨hr, hc⟩

theorem couplingOf_mem {reads : List ListRead} {source : Slot} {c : Coupling}
    (h : couplingOf reads source = some c) : ∃ x ∈ reads, x.entry = some c := by
  obtain ⟨x, hx, hc⟩ := Option.bind_eq_some_iff.1 h
  exact ⟨x, List.mem_of_find?_eq_some hx, hc⟩

theorem length_contributorsOf_le (e : Evaluation) :
    (contributorsOf e).length ≤ e.snap.records.length := List.length_filterMap_le ..

theorem map_fst_filterMap {α β : Type} (f : α → Option β) (l : List α) :
    (l.filterMap fun r => (f r).map fun c => (r, c)).map Prod.fst =
      l.filter fun r => (f r).isSome := by
  induction l with
  | nil => rfl
  | cons r l ih => cases h : f r <;> simp [h, ih]

end

/-- Settles O47. -/
theorem predictedSumsAndDrivesStayInTheirBounds :
    Obligations.PredictedSumsAndDrivesStayInTheirBounds := by
  refine ⟨fun e i => ⟨?_, fun hlen hrec hgain => ?_⟩, fun f r c => ⟨fun hnone => ?_,
    fun hlo hhi hsample => frameDrive_bounds f ⟨hlo, hhi⟩ hsample⟩⟩
  · exact congrArg List.sum (List.map_congr_left fun x _ => term_eq _ x)
  · have hterm : ∀ y ∈ (contributorsOf e).map (term (sampleTime e.frame i.val)),
        -65536 ≤ y ∧ y ≤ 65534 := fun y hy => by
      obtain ⟨x, hx, rfl⟩ := List.mem_map.1 hy
      obtain ⟨hmem, hc⟩ := mem_contributorsOf hx
      obtain ⟨hlo, hhi, hsample⟩ := hrec x.1 hmem
      obtain ⟨z, hz, hentry⟩ := couplingOf_mem hc
      exact term_bounds ⟨hlo, hhi⟩ hsample (hgain z hz x.2 hentry)
    have hcount := length_contributorsOf_le e
    have hbound := sum_bounds hterm
    rw [List.length_map] at hbound
    unfold predictedSum
    omega
  · rw [frameDrive_eq]
    simp only [unscaled_of_none hnone]
    rfl

/-! ### The evaluation record (R87 to R90) -/

section

variable {e : Evaluation} {r : SnapRecord} {c : Coupling} {n : Time}

theorem contributorsOf_fst (e : Evaluation) : (contributorsOf e).map (·.1) =
    e.snap.records.filter fun x => (couplingOf e.done x.slot).isSome :=
  map_fst_filterMap (fun r : SnapRecord => couplingOf e.done r.slot) e.snap.records

theorem partialOf_iff : partialOf e = true ↔ ∃ x ∈ contributorsOf e, x.1.samples = none := by
  simp only [partialOf, List.any_eq_true, Option.isNone_iff_eq_none]

theorem gates_iff (st : SuppressionState) : st.gates = true ↔ st ≠ .clear := by
  cases st <;> decide

theorem suppressed_evalRecord_iff (bank : BankName) : (evalRecord e bank).suppressed = true ↔
    ∃ p, e.snap.slotPart = some p ∧ p.suppression ≠ .clear := by
  show (match e.snap.slotPart with | some p => p.suppression.gates | none => false) = true ↔ _
  cases e.snap.slotPart with
  | none => simp
  | some p => simp [gates_iff]

theorem parked_evalRecord_iff (bank : BankName) : (evalRecord e bank).parked = true ↔
    ∃ p, e.snap.slotPart = some p ∧ p.drive = .parked := by
  show (match e.snap.slotPart with | some p => decide (p.drive = .parked) | none => false) = true ↔ _
  cases e.snap.slotPart with
  | none => simp
  | some p => simp

theorem blanks_iff {width : Nat} : blanks width n r c = true ↔
    (0 ≤ elapsed r c n ∧ elapsed r c n < width) ∨
      (AtOrAfter (delayed c n) r.endPoint ∧ Before (delayed c n) (r.endPoint + periods width)) := by
  simp only [blanks, Bool.or_eq_true, Bool.and_eq_true, decide_eq_true_eq]

theorem blankedIn_iff {width : Nat} {f : Frame} : blankedIn width f r c = true ↔
    ∃ n < 8, blanks width (sampleTime f n) r c = true := by
  simp only [blankedIn, List.any_eq_true, List.mem_range]

/-- The contributors listed are the first 16, each as recorded. -/
theorem getElem?_contributors (bank : BankName) {i : Nat} (hi : i < 16) :
    (evalRecord e bank).contributors[i]? = (contributorsOf e)[i]?.map (recorded e) := by
  show (((contributorsOf e).take listedContributors).map (recorded e))[i]? = _
  rw [List.getElem?_map, List.getElem?_take_of_lt (show i < listedContributors from hi)]

end

/-- Settles O48. -/
theorem evaluationRecordsListWhatTheEvaluationFound :
    Obligations.EvaluationRecordsListWhatTheEvaluationFound := by
  intro e bank r cs read
  refine ⟨contributorsOf_fst e, fun x hx => (mem_contributorsOf hx).2, rfl, rfl,
    fun i => ?_, partialOf_iff, suppressed_evalRecord_iff bank, parked_evalRecord_iff bank,
    decide_eq_true_iff, ?_, fun i x c hi hx => ?_⟩
  · show tget (Vector.ofFn fun i => predictedSum e i.val) i = _
    rw [tget, Vector.getElem_ofFn]
  · show (((contributorsOf e).take listedContributors).map (recorded e)).length = _
    rw [List.length_map, List.length_take]
    rfl
  · intro at' index u blank
    have hu : ∀ n, unscaled (sampleTime e.frame n) x c = u n := fun n => unscaled_eq ..
    have hblank : ∀ n, blanks e.snap.blanking (sampleTime e.frame n) x c = true ↔ blank n :=
      fun n => blanks_iff
    refine ⟨recorded e (x, c), ?_, rfl, rfl, ?_, ?_⟩
    · rw [getElem?_contributors bank hi, hx, Option.map_some]
    · show frameDrive e.frame x c = _
      rw [frameDrive_eq]
      simp only [hu]
    · show blankedIn e.snap.blanking e.frame x c = true ↔ _
      rw [blankedIn_iff]
      simp only [hblank]

/-! ### The slot's block (R82 to R85) -/

section

variable {p : SlotSnap} {sums : Vector Int 8} {part : Bool}

theorem tapAddition_eq (x : TapSnap) : tapAddition x =
    if x.locked = true ∧ x.shockRunning = false then
      (x.weight * x.y2 + 2 ^ 13).fdiv (2 ^ 14) else 0 := by
  unfold tapAddition
  refine if_congr (by simp) (divNearest_eq_fdiv _ (by decide)) rfl

theorem slotBlock_of_gated (h : p.suppression ≠ .clear) :
    slotBlock p sums part = ⟨zeroValues, false, false, true, false, part⟩ :=
  if_pos ((gates_iff _).2 h)

theorem slotBlock_of_parked (h : p.suppression = .clear) (hp : p.drive = .parked) :
    slotBlock p sums part = ⟨zeroValues, false, true, false, false, part⟩ :=
  (if_neg fun hg => (gates_iff _).1 hg h).trans (if_pos hp)

/-- The values of a block that nothing overrides. -/
def clippedValues (p : SlotSnap) (sums : Vector Int 8) : Vector Int 8 :=
  (sums.map fun x => x + ambient p).map (clip p.limit)

theorem slotBlock_of_plain (h : p.suppression = .clear) (hp : p.drive ≠ .parked) :
    slotBlock p sums part = ⟨clippedValues p sums, false, false, false,
      decide (clippedValues p sums ≠ sums.map fun x => x + ambient p), part⟩ :=
  (if_neg fun hg => (gates_iff _).1 hg h).trans (if_neg hp)

theorem tget_clippedValues (p : SlotSnap) (sums : Vector Int 8) (i : Fin 8) :
    tget (clippedValues p sums) i = clip p.limit (tget sums i + ambient p) := by
  rw [clippedValues, tget_map, tget_map]

theorem clip_ne_iff (l x : Int) (h : 0 ≤ l) : clip l x ≠ x ↔ l < x.natAbs := by
  rw [clip_eq l x h]
  omega

/-- A clip that changed a value. -/
theorem clippedValues_ne_iff : clippedValues p sums ≠ (sums.map fun x => x + ambient p) ↔
    ∃ i : Fin 8, (p.limit : Int) < (tget sums i + ambient p).natAbs := by
  constructor
  · intro hne
    by_contra hno
    refine hne (table_ext fun i => ?_)
    rw [tget_clippedValues, tget_map]
    by_contra hi
    exact hno ⟨i, (clip_ne_iff _ _ (Int.natCast_nonneg _)).1 hi⟩
  · rintro ⟨i, hi⟩ heq
    refine (clip_ne_iff _ _ (Int.natCast_nonneg _)).2 hi ?_
    rw [← tget_clippedValues, heq, tget_map]

theorem tget_zeroValues (i : Fin 8) : tget zeroValues i = 0 := tget_replicate ..

end

/-- Settles O49: by what overrides the block. -/
theorem slotBlocksAreClippedOrZeroed : Obligations.SlotBlocksAreClippedOrZeroed := by
  intro p sums part _ b
  have hambient : ambient p = (p.taps.map fun x =>
      if x.locked = true ∧ x.shockRunning = false then
        (x.weight * x.y2 + 2 ^ 13).fdiv (2 ^ 14) else 0).sum :=
    congrArg List.sum (List.map_congr_left fun x _ => tapAddition_eq x)
  by_cases hclear : p.suppression = .clear
  · by_cases hparked : p.drive = .parked
    · have hb : b = _ := slotBlock_of_parked hclear hparked
      rw [hb]
      exact ⟨hambient, rfl, rfl, ⟨fun h => absurd h Bool.false_ne_true, fun h => absurd hclear h⟩,
        ⟨fun _ => ⟨hclear, hparked⟩, fun _ => rfl⟩, fun i => by rw [tget_zeroValues]; exact Nat.zero_le _,
        fun _ => ⟨rfl, tget_zeroValues⟩, fun _ h => absurd hparked h⟩
    · have hb : b = _ := slotBlock_of_plain hclear hparked
      rw [hb]
      refine ⟨hambient, rfl, rfl,
        ⟨fun h => absurd h Bool.false_ne_true, fun h => absurd hclear h⟩,
        ⟨fun h => absurd h Bool.false_ne_true, fun h => absurd h.2 hparked⟩, fun i => ?_,
        fun h => ?_, fun _ _ => ⟨fun i => ?_, ?_⟩⟩
      · have := clip_bounds p.limit (tget sums i + ambient p) (Int.natCast_nonneg _)
        rw [tget_clippedValues]
        omega
      · rcases h with h | h <;> exact absurd h Bool.false_ne_true
      · rw [tget_clippedValues, clip_eq _ _ (Int.natCast_nonneg _)]
      · exact decide_eq_true_iff.trans clippedValues_ne_iff
  · have hb : b = _ := slotBlock_of_gated hclear
    rw [hb]
    exact ⟨hambient, rfl, rfl, ⟨fun _ => hclear, fun _ => rfl⟩,
      ⟨fun h => absurd h Bool.false_ne_true, fun h => absurd h.1 hclear⟩,
      fun i => by rw [tget_zeroValues]; exact Nat.zero_le _, fun _ => ⟨rfl, tget_zeroValues⟩,
      fun h => absurd h hclear⟩

end Sys2Proof.Machine
end

section
/-! PROOF. The turnaround of a window: what the end of an upstream phase leaves of the evaluations in
flight, that the phases ended by default are those the queue names, and the end of an evaluation
into its ring (R91, R152). -/

namespace Sys2Proof.Machine

open Sys2Proof

section

variable {s t : State} {slot x : Slot} {u : Target} {e : Evaluation}

/-! ### Presence and the evaluations in flight (R159) -/

/-- An entry into ABSENT leaves of the Prediction Engine all but its slot's ring and evaluation. -/
theorem prediction_enterAbsent (slot : Slot) (s : State) : (enterAbsent slot s).prediction =
    { s.prediction with
      rings := tset s.prediction.rings (slotTarget slot) []
      evaluations := s.prediction.evaluations.filter fun e => decide (e.target ≠ slotTarget slot) } := by
  obtain ⟨records, slots, hp⟩ := purgeSlot_eq slot s
  rw [enterAbsent, hp]
  rfl

/-- A change of presence leaves the evaluations in flight, or drops its slot's own (R159). -/
theorem evaluations_changePresence (slot : Slot) (f : LinkSlot → LinkSlot) (s : State) :
    (changePresence slot f s).prediction.evaluations = s.prediction.evaluations ∨
    (changePresence slot f s).prediction.evaluations =
      s.prediction.evaluations.filter fun e => decide (e.target ≠ slotTarget slot) := by
  rcases changePresence_cases slot f s with ⟨-, h⟩ | ⟨-, -, h⟩ | ⟨-, -, h⟩
  · exact .inl (by rw [h]; rfl)
  · exact .inr (by rw [h, prediction_enterAbsent]; rfl)
  · exact .inl (by rw [h]; rfl)

theorem findEvaluation_changePresence_of_ne (hu : u ≠ slotTarget slot) (f : LinkSlot → LinkSlot)
    (s : State) : findEvaluation u (changePresence slot f s) = findEvaluation u s := by
  unfold findEvaluation
  rcases evaluations_changePresence slot f s with h | h
  · rw [h]
  · rw [h, find_filter_evaluations hu]

/-- A change of presence leaves each record, or retires it (R22). -/
theorem getRecord_changePresence (slot : Slot) (f : LinkSlot → LinkSlot) (r : RecordNo) (s : State) :
    getRecord r (changePresence slot f s) = getRecord r s ∨
      getRecord r (changePresence slot f s) = freeRecord := by
  rcases changePresence_cases slot f s with ⟨-, h⟩ | ⟨-, -, h⟩ | ⟨-, -, h⟩
  · exact .inl (by rw [h]; rfl)
  · rw [h, getRecord_enterAbsent, purgeSlot, getRecord_retireAll]
    split
    · exact .inr rfl
    · exact .inl rfl
  · exact .inl (by rw [h]; rfl)

theorem now_changePresence (slot : Slot) (f : LinkSlot → LinkSlot) (s : State) :
    (changePresence slot f s).now = s.now := by
  rcases changePresence_cases slot f s with ⟨-, h⟩ | ⟨-, -, h⟩ | ⟨-, -, h⟩
  · rw [h]
    rfl
  · obtain ⟨records, slots, hp⟩ := purgeSlot_eq slot (modLink slot f s)
    rw [h, enterAbsent, hp]
    rfl
  · rw [h]
    rfl

theorem recordDue_freeRecord (now : Time) : recordDue freeRecord now = false := rfl

theorem noEventDue_changePresence (slot : Slot) (f : LinkSlot → LinkSlot) (h : NoEventDue s) :
    NoEventDue (changePresence slot f s) := fun r => by
  rw [now_changePresence]
  rcases getRecord_changePresence slot f r s with hr | hr
  · rw [hr]
    exact h r
  · rw [hr]
    exact recordDue_freeRecord s.now

/-! ### The end of an upstream phase -/

theorem noEventDue_beginSlotEvaluation (slot : Slot) (m : Option Answer) (h : NoEventDue s) :
    NoEventDue (beginSlotEvaluation slot m s) := by
  unfold beginSlotEvaluation
  split <;> exact h

/-- The end of an upstream phase brings no time event of a record. -/
theorem noEventDue_upstreamPhaseEnd (slot : Slot) (h : NoEventDue s) :
    NoEventDue (upstreamPhaseEnd slot s) := by
  unfold upstreamPhaseEnd
  split
  · exact noEventDue_beginSlotEvaluation _ _ (noEventDue_changePresence _ _ h)
  · exact h

/-- It reaches no evaluation but its own slot's. -/
theorem findEvaluation_upstreamPhaseEnd_of_ne (hu : u ≠ slotTarget slot) (s : State) :
    findEvaluation u (upstreamPhaseEnd slot s) = findEvaluation u s := by
  unfold upstreamPhaseEnd
  split
  · unfold beginSlotEvaluation
    split
    · refine (find_beginEvaluation (slotTarget slot) u _ _).trans ?_
      rw [if_neg (Ne.symm hu), findEvaluation_changePresence_of_ne hu]
    · exact findEvaluation_changePresence_of_ne hu _ s
  · rfl

/-- Its own slot's evaluation is begun with the window waiting for it (R71). -/
theorem mem_evaluations_upstreamPhaseEnd
    (h : e ∈ (upstreamPhaseEnd slot s).prediction.evaluations) : e ∈ s.prediction.evaluations ∨
      e.target = slotTarget slot ∧
        (getLink slot (upstreamPhaseEnd slot s)).window.isEvaluating = true := by
  unfold upstreamPhaseEnd at h ⊢
  split at h
  · next m _ =>
    generalize hp : changePresence slot _ s = p at h ⊢
    have hsub : ∀ y ∈ p.prediction.evaluations, y ∈ s.prediction.evaluations := fun y hy => by
      rw [← hp] at hy
      rcases evaluations_changePresence slot (LinkSlot.countWindow s.settings.global (windowGood m))
        s with he | he
      · exact he ▸ hy
      · rw [he] at hy
        exact List.mem_of_mem_filter hy
    unfold beginSlotEvaluation at h ⊢
    split at h
    · rcases mem_insertEvaluation h with he | he
      · exact .inr ⟨by rw [he]; rfl, by rw [getLink_setFeedPhase_self]; rfl⟩
      · exact .inl (hsub e he)
    · exact .inl (hsub e h)
  · exact .inl h

theorem ringLaw_upstreamPhaseEnd (slot : Slot) (h : RingLaw s) :
    RingLaw (upstreamPhaseEnd slot s) :=
  (upstreamPhaseEnd_moves slot s).keeps
    (fun k hk _ _ hc hr => change_keeps_ringLaw (by rintro rfl; simp [linkKinds] at hk) hc hr) h

/-! ### The phases ended by default are those that the queue names (R152) -/

theorem endPhase_of_not_upstream (h : (getLink slot s).window.isUpstream = false) :
    endPhase slot s = s := by
  rw [endPhase, h, if_neg Bool.false_ne_true]

theorem endPhase_of_upstream (hs : startDue s = false)
    (h : (getLink slot s).window.isUpstream = true) :
    endPhase slot s = fetchStart (upstreamPhaseEnd slot s) := by
  rw [endPhase, if_pos h, fetchStart_of_notDue hs]

/-- A fold that passes every step but one as it stands does no more after that one. -/
theorem foldl_of_first {α β : Type} {f : β → α → β} {l : List α} {a : α} {b : β}
    (ha : a ∈ l) (hidem : f (f b a) a = f b a)
    (h : ∀ pre suf, l = pre ++ a :: suf → ∀ y ∈ pre, f b y = b ∧ f (f b a) y = f b a) :
    l.foldl f b = l.foldl f (f b a) := by
  obtain ⟨pre, suf, rfl⟩ := List.append_of_mem ha
  have hpre : ∀ c, (∀ y ∈ pre, f c y = c) → pre.foldl f c = c := fun c hc => by
    clear h ha
    induction pre with
    | nil => rfl
    | cons y l ih =>
      rw [List.foldl_cons, hc y List.mem_cons_self]
      exact ih fun z hz => hc z (List.mem_cons_of_mem _ hz)
  have hy := h pre suf rfl
  rw [List.foldl_append, List.foldl_append, hpre b fun y hm => (hy y hm).1,
    hpre (f b a) fun y hm => (hy y hm).2, List.foldl_cons, List.foldl_cons, hidem]

theorem slotsAt_sorted (w : Nat) : (slotsAt w).Pairwise (· < ·) :=
  (List.pairwise_lt_finRange 96).filter _

/-- The end of the lowest upstream phase of a window is the first of those that come by default. -/
theorem endPhases_endPhase (h : FirstUpstream x slot s) :
    endPhases (position slot) s = endPhases (position slot) (endPhase x s) := by
  obtain ⟨hpos, -, hbelow⟩ := h
  refine foldl_of_first (f := fun s y => endPhase y s) ((mem_slotsAt _ x).2 hpos)
    (endPhase_of_not_upstream (isUpstream_endPhase x s)) fun pre suf hl y hy => ?_
  have hlt : y < x := by
    have := slotsAt_sorted (position slot)
    rw [hl, List.pairwise_append] at this
    exact this.2.2 y hy x List.mem_cons_self
  have hy' := hbelow y hlt ((mem_slotsAt _ y).1 (hl ▸ List.mem_append_left _ hy))
  refine ⟨endPhase_of_not_upstream hy', endPhase_of_not_upstream ?_⟩
  rw [getLink_endPhase_of_ne (ne_of_lt hlt)]
  exact hy'

theorem inTurn_of_position {p : Place} (hpos : position x = position slot) (h : InTurn p slot s) :
    InTurn p x s := by
  obtain ⟨hs, hd, hover, hcome⟩ := h
  refine ⟨hs, hd, fun y hy => hover y (hpos ▸ hy), ?_⟩
  rw [placeCome, hpos]
  exact hcome

/-- The command that ends the lowest upstream phase of a window, and the state from which the next
one takes what it does. -/
theorem exec_upstreamPhaseEnd_first (h : InTurn .phaseEnd slot s) (hx : FirstUpstream x slot s) :
    exec (.upstreamPhaseEnd x) s = .next (upstreamPhaseEnd x s) ∧
      Running (upstreamPhaseEnd x s) ∧ takeMoment (upstreamPhaseEnd x s) = endPhase x s := by
  obtain ⟨hs, hd, hplace⟩ := inTurn_of_position hx.1 h
  refine ⟨inTurn_of_inTurn _ x _ ⟨hs, hd, hplace⟩, ?_, ?_⟩
  · exact (congrArg (fun c => c.2.2.1)
      ((upstreamPhaseEnd_moves x s).clockPart (by simp [linkKinds]))).trans hs
  · rw [takeMoment, takeRecordEvents_of_none (noEventDue_upstreamPhaseEnd x hd.2.1),
      endPhase_of_upstream hd.2.2 hx.2.1]

theorem evaluations_fetchStart (s : State) :
    (fetchStart s).prediction.evaluations = s.prediction.evaluations := by rw [fetchStart_frame]

theorem findEvaluation_endPhase_of_ne (hu : u ≠ slotTarget slot) (s : State) :
    findEvaluation u (endPhase slot s) = findEvaluation u s := by
  unfold endPhase
  split
  · unfold findEvaluation
    rw [evaluations_fetchStart]
    refine (findEvaluation_upstreamPhaseEnd_of_ne hu _).trans ?_
    unfold findEvaluation
    rw [evaluations_fetchStart]
  · rfl

/-- Of a window whose evaluation has begun, the upstream phase has ended. -/
theorem ne_of_evaluating (h : (getLink slot s).window.isEvaluating = true)
    (hx : (getLink x s).window.isUpstream = true) : slot ≠ x := by
  rintro rfl
  cases hw : (getLink slot s).window <;> simp [hw, Window.isEvaluating, Window.isUpstream] at h hx

theorem slotOfTarget_slotTarget (slot : Slot) : slotOfTarget (slotTarget slot) = some slot :=
  below_eq_some.mpr rfl

theorem beginTurnaround_of_evaluating (h : (getLink slot s).window.isEvaluating = true) :
    beginTurnaround (slotTarget slot) s = endPhases (position slot) s := by
  rw [beginTurnaround, slotOfTarget_slotTarget]
  exact if_pos h

/-! ### The end of an evaluation (R91) -/

theorem exec_evaluationEnd (hs : Running s) (u : Target) :
    exec (.evaluationEnd u) s = .next (endInTurnaround u (takeMoment s)) := by
  show execEvaluationEnd u s = _
  rw [execEvaluationEnd, afterEvents, running_of_running _ hs]

theorem canEnd_iff : canEnd u s = true ↔
    ∃ e, findEvaluation u s = some e ∧ e.waiting = [] ∧ e.bank ≠ none := by
  unfold canEnd
  cases findEvaluation u s <;> simp [Option.isSome_iff_ne_none]

theorem evaluationEnd_of_done {bank : BankName} (hf : findEvaluation u s = some e)
    (hw : e.waiting = []) (hb : e.bank = some bank) : evaluationEnd u s = endInto e bank s := by
  rw [evaluationEnd, hf]
  simp only [endOf, hw, hb]

theorem pushRing_eq (r : EvalRecord) (l : List EvalRecord) :
    pushRing r l = (if l.length < 3 then l else l.tail) ++ [r] := by
  unfold pushRing
  split <;> rfl

/-- The end of an evaluation reaches the Prediction Engine and the windows alone. -/
theorem endInto_eq (e : Evaluation) (bank : BankName) (s : State) : endInto e bank s = { s with
    prediction := (endInto e bank s).prediction, links := (endInto e bank s).links } := by
  unfold endInto
  dsimp only
  split <;> rfl

/-- The phases that the queue names before the end of an evaluation are those that come by default
(R152). -/
theorem exec_evaluationEnd_after_upstreamPhaseEnd (h : InTurn .phaseEnd slot s)
    (hc : canEnd (slotTarget slot) s = true) (he : (getLink slot s).window.isEvaluating = true)
    (hx : FirstUpstream x slot s) : exec (.evaluationEnd (slotTarget slot)) s =
      exec (.evaluationEnd (slotTarget slot)) (upstreamPhaseEnd x s) := by
  obtain ⟨-, hrun, hmoment⟩ := exec_upstreamPhaseEnd_first h hx
  have hne := ne_of_evaluating he hx.2.1
  have hc' : canEnd (slotTarget slot) (endPhase x s) = true := by
    rw [canEnd, findEvaluation_endPhase_of_ne (slotTarget_ne hne)]
    exact hc
  have he' : (getLink slot (endPhase x s)).window.isEvaluating = true := by
    rw [getLink_endPhase_of_ne hne]
    exact he
  rw [exec_evaluationEnd h.1, exec_evaluationEnd hrun, hmoment,
    takeMoment_of_ready h.2.1.2.1 h.2.1.2.2, endInTurnaround, endInTurnaround, if_pos hc, if_pos hc',
    beginTurnaround_of_evaluating he, beginTurnaround_of_evaluating he', endPhases_endPhase hx]

/-- Settles O46: the end of an evaluation with all reads made is `endInto`. -/
theorem evaluationsEndIntoTheRing : Obligations.EvaluationsEndIntoTheRing := by
  unfold Obligations.EvaluationsEndIntoTheRing
  refine ⟨fun u s e bank hs hf hw hb hbegun => ?_, fun slot x s e h hf hw hb he hx => ?_,
    fun u s hs h => ?_⟩
  · obtain rfl : e.target = u := findEvaluation_target hf
    refine ⟨endInto e bank s, ?_, ?_, fun x hx => ?_, ?_, fun slot p m hu hp hwin => ?_,
      fun x hx => ?_, endInto_eq e bank s⟩
    · rw [exec_evaluationEnd hs.1, takeMoment_of_ready hs.2.1 hs.2.2,
        endInTurnaround_of_begun _ hbegun, evaluationEnd_of_done hf hw hb]
    · rw [← pushRing_eq, getRing, endInto_prediction]
      exact tget_tset_self ..
    · rw [getRing, endInto_prediction]
      exact tget_tset_of_ne _ _ hx
    · rw [endInto_prediction]
    · rw [getLink_endInto, if_pos hu.symm, hp]
      show (getLink slot s).window.ready _ = _
      rw [hwin]
      rfl
    · rw [getLink_endInto, if_neg hx]
  · exact ⟨_, (exec_upstreamPhaseEnd_first h hx).1,
      exec_evaluationEnd_after_upstreamPhaseEnd h (canEnd_iff.2 ⟨e, hf, hw, hb⟩) he hx⟩
  · rw [exec_evaluationEnd hs.1, takeMoment_of_ready hs.2.1 hs.2.2, endInTurnaround, if_neg]
    rw [canEnd_iff]
    rintro ⟨e, hf, hw, -⟩
    rcases h with h | ⟨e', h, hw'⟩
    · exact absurd (h.symm.trans hf) (by simp)
    · obtain rfl := Option.some.inj (hf.symm.trans h)
      exact hw' hw

end

end Sys2Proof.Machine
end

section
/-! PROOF. Gain updates at their grant and divergence events (R66, R106, R109 to R111). -/

namespace Sys2Proof.Machine

open Sys2Proof

section

variable {s t : State} {st : Step} {rest : List Step} {u : GainUpdate} {more : List GainUpdate}

/-! ### Divergence events (R109 to R111) -/

/-- Inside a hold the event restarts the hold. -/
theorem divergenceEvent_of_hold {v : Target} (h : 0 < (getAdapt v s).hold) :
    divergenceEvent v s = modAdapt v
      (fun a => { a with hold := s.settings.global.divergenceHold, postscaler := 0 })
      (latch .divergence s) :=
  if_pos h

/-- Outside a hold the event is counted. -/
theorem divergenceEvent_of_count {v : Target} (h : (getAdapt v s).hold = 0)
    (hd : (getAdapt v s).divergence < 2) :
    divergenceEvent v s = modAdapt v (fun a => { a with
      divergence := a.divergence + 1
      hold := s.settings.global.divergenceHold
      postscaler := 0 }) (latch .divergence s) := by
  have h1 : ¬ 0 < (getAdapt v (latch .divergence s)).hold := by
    rw [getAdapt_latch]
    omega
  have h2 : ¬ 3 ≤ (getAdapt v (latch .divergence s)).divergence + 1 := by
    rw [getAdapt_latch]
    omega
  exact (if_neg h1).trans (if_neg h2)

/-- The third freezes the target and cuts off its steps. -/
theorem divergenceEvent_of_third {v : Target} (h : (getAdapt v s).hold = 0)
    (hd : 2 ≤ (getAdapt v s).divergence) :
    divergenceEvent v s = cutSteps v (latch .frozen (modAdapt v (fun a => { a with
      divergence := 3
      hold := s.settings.global.divergenceHold
      postscaler := 0
      frozen := true }) (latch .divergence s))) := by
  have h1 : ¬ 0 < (getAdapt v (latch .divergence s)).hold := by
    rw [getAdapt_latch]
    omega
  have h2 : 3 ≤ (getAdapt v (latch .divergence s)).divergence + 1 := by
    rw [getAdapt_latch]
    omega
  exact (if_neg h1).trans (if_pos h2)

/-- An event reaches the adaptation records, the steps and the flags alone, and leaves the open
moment the one it is. -/
theorem divergenceEvent_eq (v : Target) (s : State) :
    divergenceEvent v s = { s with
      adaptation := (divergenceEvent v s).adaptation, port := (divergenceEvent v s).port } ∧
    (divergenceEvent v s).adaptation.openMoment.map (·.moment) =
      s.adaptation.openMoment.map (·.moment) ∧
    ∀ x : Target, x ≠ v → getAdapt x (divergenceEvent v s) = getAdapt x s := by
  rcases Nat.eq_zero_or_pos (getAdapt v s).hold with h | h
  · rcases Nat.lt_or_ge (getAdapt v s).divergence 2 with hd | hd
    · rw [divergenceEvent_of_count h hd]
      exact ⟨rfl, rfl, fun x hx => tget_tmod_of_ne _ _ hx⟩
    · rw [divergenceEvent_of_third h hd]
      exact ⟨rfl, Option.map_map .., fun x hx => tget_tmod_of_ne _ _ hx⟩
  · rw [divergenceEvent_of_hold h]
    exact ⟨rfl, rfl, fun x hx => tget_tmod_of_ne _ _ hx⟩

/-! ### The report of an update (R106) -/

theorem reportUpdate_of_more (mark : Bool) (h : more ≠ []) :
    reportUpdate st rest more mark s =
      setSteps [{ st with updates := more, clipped := mark }] rest s := by
  cases more with
  | nil => exact absurd rfl h
  | cons => rfl

theorem reportUpdate_of_last_unmarked :
    reportUpdate st rest [] false s = setSteps [] rest s := rfl

theorem reportUpdate_of_last_marked :
    reportUpdate st rest [] true s = divergenceEvent st.target (setSteps [] rest s) := rfl

/-- A report reaches the Adaptation Engine and the flags alone, and leaves the open moment the one
it is. -/
theorem reportUpdate_eq (st : Step) (rest : List Step) (more : List GainUpdate) (mark : Bool)
    (s : State) : reportUpdate st rest more mark s = { s with
      adaptation := (reportUpdate st rest more mark s).adaptation
      port := (reportUpdate st rest more mark s).port } ∧
    (reportUpdate st rest more mark s).adaptation.openMoment.map (·.moment) =
      s.adaptation.openMoment.map (·.moment) := by
  cases more with
  | cons u l => exact ⟨rfl, Option.map_map ..⟩
  | nil =>
    cases mark with
    | false => exact ⟨rfl, Option.map_map ..⟩
    | true =>
      rw [reportUpdate_of_last_marked]
      obtain ⟨h, hm, -⟩ := divergenceEvent_eq st.target (setSteps [] rest s)
      refine ⟨h.trans rfl, hm.trans (Option.map_map ..)⟩

/-! ### The grant (R64, R66) -/

/-- The mark that an update sets at its grant. -/
def grantMark (s : State) (st : Step) (u : GainUpdate) : Bool :=
  (updateReport s.store st.bank st.target u).marks

theorem predictionWaits_eq_false_iff : predictionWaits s = false ↔
    (s.prediction.gap = true ∨ ∀ e ∈ s.prediction.evaluations, e.waiting = []) := by
  cases hg : s.prediction.gap with
  | true => simp [predictionWaits, hg]
  | false => simp [predictionWaits, hasReads, hg]

theorem exec_gainUpdate (hs : Ready s) : exec .gainUpdate s = .next (gainUpdate s) :=
  afterEvents_of_ready _ hs

/-- What a granted update brings. -/
theorem gainUpdate_eq (hw : predictionWaits s = false) (hst : s.adaptation.steps = st :: rest)
    (hu : st.updates = u :: more) : gainUpdate s =
      updateEnded (reportUpdate st rest more (st.clipped || grantMark s st u)
        (setStore (applyUpdate s.store st.bank st.target u) s)) := by
  rw [gainUpdate, hw, if_neg Bool.false_ne_true, hst]
  dsimp only
  rw [hu]
  rfl

theorem gainUpdate_of_none (h : s.adaptation.steps = [] ∨ predictionWaits s = true) :
    gainUpdate s = s := by
  unfold gainUpdate
  split
  · rfl
  · next hw => rw [h.resolve_right hw]

/-- The blocks that a granted update leaves. -/
theorem gainUpdate_frame (hw : predictionWaits s = false) (hst : s.adaptation.steps = st :: rest)
    (hu : st.updates = u :: more) : gainUpdate s = { s with
      store := applyUpdate s.store st.bank st.target u
      adaptation := (gainUpdate s).adaptation
      port := (gainUpdate s).port
      prediction := { s.prediction with gap := false } } ∧
    (gainUpdate s).adaptation.openMoment.map (·.moment) =
      s.adaptation.openMoment.map (·.moment) := by
  rw [gainUpdate_eq hw hst hu]
  generalize hr : reportUpdate st rest more _ _ = r
  obtain ⟨h, hm⟩ := reportUpdate_eq st rest more (st.clipped || grantMark s st u)
    (setStore (applyUpdate s.store st.bank st.target u) s)
  rw [hr] at h hm
  refine ⟨?_, hm⟩
  rw [h]
  rfl

/-- A step with updates left goes on with its mark. -/
theorem adaptation_gainUpdate_of_more (hw : predictionWaits s = false)
    (hst : s.adaptation.steps = st :: rest) (hu : st.updates = u :: more) (hm : more ≠ []) :
    (gainUpdate s).adaptation = { s.adaptation with
      steps := { st with updates := more, clipped := st.clipped || grantMark s st u } :: rest
      openMoment := (gainUpdate s).adaptation.openMoment
      gap := true } ∧ (gainUpdate s).port = s.port := by
  rw [gainUpdate_eq hw hst hu, reportUpdate_of_more _ hm]
  exact ⟨rfl, rfl⟩

/-- The last update of an unmarked step ends it. -/
theorem adaptation_gainUpdate_of_last (hw : predictionWaits s = false)
    (hst : s.adaptation.steps = st :: rest) (hu : st.updates = [u])
    (hm : (st.clipped || grantMark s st u) = false) :
    (gainUpdate s).adaptation = { s.adaptation with
      steps := rest
      openMoment := (gainUpdate s).adaptation.openMoment
      gap := decide (rest ≠ []) } ∧ (gainUpdate s).port = s.port := by
  rw [gainUpdate_eq hw hst hu, hm, reportUpdate_of_last_unmarked]
  exact ⟨rfl, rfl⟩

/-- The last update of a marked step ends it with a divergence event (R109). -/
theorem gainUpdate_of_marked (hw : predictionWaits s = false)
    (hst : s.adaptation.steps = st :: rest) (hu : st.updates = [u])
    (hm : (st.clipped || grantMark s st u) = true) : gainUpdate s =
      updateEnded (divergenceEvent st.target (setSteps [] rest
        (setStore (applyUpdate s.store st.bank st.target u) s))) := by
  rw [gainUpdate_eq hw hst hu, hm, reportUpdate_of_last_marked]

/-- An update with nothing to write marks nothing. -/
theorem applyUpdate_of_absent (h : st.bank ≠ s.store.active ∨
      (tget (s.store.bank st.bank).lists u.source).find?
        (fun x => decide (x.target = st.target)) = none) :
    applyUpdate s.store st.bank st.target u = s.store ∧ grantMark s st u = false := by
  unfold grantMark
  rcases applyUpdate_cases s.store st.bank st.target u with
    ⟨-, hr, ha⟩ | ⟨-, -, hr, ha⟩ | ⟨e, hb, he, -, -⟩
  · exact ⟨ha, by rw [hr]; rfl⟩
  · exact ⟨ha, by rw [hr]; rfl⟩
  · rcases h with h | h
    · exact absurd hb h
    · exact absurd (h.symm.trans he) (by simp)

/-- An update of an entry moves its gain, stops it at the bound, and marks what it clips. -/
theorem applyUpdate_of_entry {x : Entry} (hb : st.bank = s.store.active)
    (hx : (tget (s.store.bank st.bank).lists u.source).find?
      (fun x => decide (x.target = st.target)) = some x) :
    applyUpdate s.store st.bank st.target u = s.store.setBank st.bank
      ⟨tset (s.store.bank st.bank).lists u.source
        (setGain (tget (s.store.bank st.bank).lists u.source) st.target (u.newGain x.gain)),
        (s.store.bank st.bank).pool⟩ ∧
      grantMark s st u = u.clips x.gain := by
  unfold grantMark
  rcases applyUpdate_cases s.store st.bank st.target u with
    ⟨hne, -, -⟩ | ⟨-, he, -, -⟩ | ⟨e, -, he, hr, ha⟩
  · exact absurd hb hne
  · exact absurd (hx.symm.trans he) (by simp)
  · obtain rfl : x = e := Option.some.inj (hx.symm.trans he)
    exact ⟨ha, by rw [hr]; rfl⟩

theorem newGain_eq (u : GainUpdate) (g : Int) :
    u.newGain g = max (-(u.gmax : Int)) (min u.gmax (if u.up then g + u.mu else g - u.mu)) :=
  clip_eq _ _ (Int.natCast_nonneg _)

/-- The mark that judges the end of a step is set by an entry whose gain goes beyond the bound. -/
theorem grantMark_of_clipped (h : st.clipped = true ∨ (st.bank = s.store.active ∧
      ∃ x ∈ (tget (s.store.bank st.bank).lists u.source).find?
          (fun x => decide (x.target = st.target)),
        u.gmax < (if u.up then x.gain + u.mu else x.gain - u.mu).natAbs)) :
    (st.clipped || grantMark s st u) = true := by
  rcases h with h | ⟨hb, x, hx, hlt⟩
  · rw [h, Bool.true_or]
  · have hclips : u.clips x.gain = true :=
      decide_eq_true ((clip_ne_iff _ _ (Int.natCast_nonneg _)).2 (Int.ofNat_lt.2 hlt))
    rw [(applyUpdate_of_entry hb hx).2, hclips, Bool.or_true]

/-- Settles O50: the report of an update, the store after it, and the divergence event that ends a
marked step. -/
theorem gainUpdatesStepAndClippedStepsDiverge :
    Obligations.GainUpdatesStepAndClippedStepsDiverge := by
  unfold Obligations.GainUpdatesStepAndClippedStepsDiverge
  refine ⟨fun s st rest u more hs hw hst hu => ?_, fun s st rest u hs hw hst hu hclip => ?_,
    fun s hs h => ?_⟩
  · replace hw := predictionWaits_eq_false_iff.2 hw
    obtain ⟨hframe, hmoment⟩ := gainUpdate_frame hw hst hu
    have hstore : (gainUpdate s).store = applyUpdate s.store st.bank st.target u := by rw [hframe]
    refine ⟨gainUpdate s, grantMark s st u, exec_gainUpdate hs, fun h => ?_, fun x hb hx => ?_,
      fun hm => adaptation_gainUpdate_of_more hw hst hu hm, fun hm hmark => ?_, hmoment, ?_⟩
    · rw [hstore]
      exact applyUpdate_of_absent h
    · obtain ⟨ha, hmark⟩ := applyUpdate_of_entry hb hx
      rw [hstore, ha, bank_setBank_self, bank_setBank_other, active_setBank, swapPending_setBank]
      refine ⟨?_, ?_, fun y hy => tget_tset_of_ne _ _ hy, rfl, rfl, rfl, rfl⟩
      · rw [hmark, ← newGain_eq]
        exact decide_eq_true_iff
      · rw [← newGain_eq]
        exact tget_tset_self ..
    · subst hm
      exact adaptation_gainUpdate_of_last hw hst hu hmark
    · rw [hframe]
  · replace hw := predictionWaits_eq_false_iff.2 hw
    have heq := gainUpdate_of_marked hw hst hu (grantMark_of_clipped hclip)
    have hothers := (divergenceEvent_eq st.target (setSteps [] rest
      (setStore (applyUpdate s.store st.bank st.target u) s))).2.2
    refine ⟨gainUpdate s, exec_gainUpdate hs, fun x hx => ?_, fun hh => ?_, fun hh hd => ?_,
      fun hh hd => ?_⟩
    · rw [heq]
      exact hothers x hx
    · rw [heq, divergenceEvent_of_hold (by exact hh)]
      exact ⟨tget_tmod_self .., rfl, rfl⟩
    · rw [heq, divergenceEvent_of_count (by exact hh) (by exact hd)]
      exact ⟨tget_tmod_self .., rfl, rfl⟩
    · rw [heq, divergenceEvent_of_third (by exact hh) (by exact hd)]
      exact ⟨tget_tmod_self .., rfl, rfl⟩
  · rw [exec_gainUpdate hs, gainUpdate_of_none]
    refine h.imp_right fun ⟨hg, e, he, hw⟩ => ?_
    rw [predictionWaits, hg, hasReads, List.any_eq_true.2 ⟨e, he, decide_eq_true hw⟩]
    rfl

end

end Sys2Proof.Machine
end

section
/-! PROOF. Grants to the Prediction Engine: the lowest target's read, in its fixed bank
(R63 to R65, R73, R74, R152). -/

namespace Sys2Proof.Machine

open Sys2Proof

section

variable {s t : State} {slot x : Slot} {u : Target} {e : Evaluation} {l : List Evaluation}
  {source : Slot} {more : List Slot}

/-! ### Whose read a grant serves (R73) -/

/-- The evaluation with the lowest target among those that wait is the first one that does. -/
theorem find_waiting (hl : (l.map (·.target)).Pairwise (· < ·)) (he : e ∈ l) (hw : e.waiting ≠ [])
    (hmin : ∀ x ∈ l, x.waiting ≠ [] → e.target ≤ x.target) :
    l.find? (fun x => decide (x.waiting ≠ [])) = some e := by
  induction l with
  | nil => exact absurd he List.not_mem_nil
  | cons a l ih =>
    obtain ⟨ha, hl⟩ := List.pairwise_cons.1 hl
    rcases List.mem_cons.1 he with rfl | he
    · exact List.find?_cons_of_pos (decide_eq_true hw)
    · have hlt : a.target < e.target := ha _ (List.mem_map_of_mem he)
      have hna : ¬ a.waiting ≠ [] := fun h =>
        absurd (hmin a List.mem_cons_self h) (not_le_of_gt hlt)
      rw [List.find?_cons_of_neg (by simpa using hna)]
      exact ih hl he fun x hx => hmin x (List.mem_cons_of_mem _ hx)

/-- A grant serves it, and leaves the others. -/
theorem grantRead_eq_map (c : CouplingStore) (hl : (l.map (·.target)).Pairwise (· < ·)) (he : e ∈ l)
    (hw : e.waiting = source :: more) (hmin : ∀ x ∈ l, x.waiting ≠ [] → e.target ≤ x.target) :
    grantRead c l =
      l.map fun x => if x.target = e.target then e.granted c source more else x := by
  induction l with
  | nil => exact absurd he List.not_mem_nil
  | cons a l ih =>
    obtain ⟨ha, hl⟩ := List.pairwise_cons.1 hl
    rcases List.mem_cons.1 he with rfl | he
    · have hrest : l.map (fun x => if x.target = e.target then e.granted c source more else x) =
          l := by
        rw [List.map_congr_left (g := id), List.map_id]
        exact fun x hx => if_neg (ne_of_gt (ha _ (List.mem_map_of_mem hx)))
      rw [List.map_cons, if_pos rfl, hrest, grantRead, hw]
    · have hlt : a.target < e.target := ha _ (List.mem_map_of_mem he)
      have hna : a.waiting = [] := by
        by_contra h
        exact absurd (hmin a List.mem_cons_self h) (not_le_of_gt hlt)
      rw [List.map_cons, if_neg (ne_of_lt hlt), grantRead, hna]
      exact congrArg _ (ih hl he fun x hx => hmin x (List.mem_cons_of_mem _ hx))

theorem nextReader_of_lowest (hl : RingLaw s) (he : e ∈ s.prediction.evaluations)
    (hw : e.waiting ≠ []) (hmin : ∀ x ∈ s.prediction.evaluations, x.waiting ≠ [] →
      e.target ≤ x.target) : nextReader s = some e.target :=
  congrArg (Option.map Evaluation.target) (find_waiting hl.2.2 he hw hmin)

theorem nextReader_eq_none_iff : nextReader s = none ↔
    ∀ e ∈ s.prediction.evaluations, e.waiting = [] := by
  simp [nextReader]

/-- One grant to the Prediction Engine. -/
theorem predictionRead_of_lowest (hl : RingLaw s) (he : e ∈ s.prediction.evaluations)
    (hw : e.waiting = source :: more) (hmin : ∀ x ∈ s.prediction.evaluations, x.waiting ≠ [] →
      e.target ≤ x.target) : predictionRead s = { s with
        adaptation := { s.adaptation with gap := false }
        prediction := { s.prediction with
          gap := true
          evaluations := s.prediction.evaluations.map fun x =>
            if x.target = e.target then e.granted s.store source more else x } } := by
  have hreads : hasReads s = true :=
    List.any_eq_true.2 ⟨e, he, decide_eq_true (by rw [hw]; exact List.cons_ne_nil _ _)⟩
  rw [predictionRead, if_pos hreads, grantRead_eq_map s.store hl.2.2 he hw hmin]
  rfl

theorem exec_predictionListRead (hs : Running s) :
    exec .predictionListRead s = .next (readInTurnaround (takeMoment s)) := by
  show execPredictionListRead s = _
  rw [execPredictionListRead, afterEvents, running_of_running _ hs]

theorem exec_predictionListRead_of_lowest (hs : Ready s) (hl : RingLaw s)
    (he : e ∈ s.prediction.evaluations) (hw : e.waiting = source :: more)
    (hmin : ∀ x ∈ s.prediction.evaluations, x.waiting ≠ [] → e.target ≤ x.target)
    (hbegun : TurnaroundBegun e.target s) : exec .predictionListRead s = .next { s with
      adaptation := { s.adaptation with gap := false }
      prediction := { s.prediction with
        gap := true
        evaluations := s.prediction.evaluations.map fun x =>
          if x.target = e.target then e.granted s.store source more else x } } := by
  rw [exec_predictionListRead hs.1, takeMoment_of_ready hs.2.1 hs.2.2,
    readInTurnaround_of_begun fun v hv => ?_, predictionRead_of_lowest hl he hw hmin]
  rw [nextReader_of_lowest hl he (by rw [hw]; exact List.cons_ne_nil _ _) hmin] at hv
  exact Option.some.inj hv ▸ hbegun

/-! ### After the upstream phases of the window (R152) -/

theorem mem_of_findEvaluation (h : findEvaluation u s = some e) : e ∈ s.prediction.evaluations :=
  List.mem_of_find?_eq_some h

/-- In evaluations in ascending order of target each one is found by its own. -/
theorem findEvaluation_of_mem (hl : RingLaw s) (he : e ∈ s.prediction.evaluations) :
    findEvaluation e.target s = some e := by
  rcases hf : findEvaluation e.target s with _ | y
  · exact absurd (decide_eq_true rfl) (List.find?_eq_none.1 hf e he)
  · have hy := findEvaluation_target hf
    have hinj : (s.prediction.evaluations.map (·.target)).Nodup := hl.2.2.imp ne_of_lt
    rw [List.inj_on_of_nodup_map hinj (mem_of_findEvaluation hf) he hy]

/-- After the end of an upstream phase of the window that waits for the next reader's evaluation,
the next reader is of that window still: the same one, or the one whose evaluation has begun. -/
theorem nextReader_endPhase (hl : RingLaw s) (he : e ∈ s.prediction.evaluations)
    (hw : e.waiting ≠ []) (htarget : e.target = slotTarget slot) (hne : slot ≠ x)
    (hmin : ∀ y ∈ s.prediction.evaluations, y.waiting ≠ [] → e.target ≤ y.target)
    (hslot : (getLink slot s).window.isEvaluating = true) :
    ∃ y : Slot, (y = slot ∨ y = x) ∧
      nextReader (upstreamPhaseEnd x s) = some (slotTarget y) ∧
      (getLink y (upstreamPhaseEnd x s)).window.isEvaluating = true := by
  have hl' := ringLaw_upstreamPhaseEnd x hl
  have hslot' : (getLink slot (upstreamPhaseEnd x s)).window.isEvaluating = true := by
    rw [getLink_upstreamPhaseEnd_of_ne hne]
    exact hslot
  have he' : e ∈ (upstreamPhaseEnd x s).prediction.evaluations := by
    refine mem_of_findEvaluation (u := e.target) ?_
    rw [findEvaluation_upstreamPhaseEnd_of_ne (htarget ▸ slotTarget_ne hne)]
    exact findEvaluation_of_mem hl he
  generalize hp : upstreamPhaseEnd x s = p at hl' hslot' he' ⊢
  rcases hf : p.prediction.evaluations.find? (fun y => decide (y.waiting ≠ [])) with _ | y
  · exact absurd (decide_eq_true hw) (List.find?_eq_none.1 hf e he')
  have hread : nextReader p = some y.target := congrArg (Option.map Evaluation.target) hf
  have hy : y.waiting ≠ [] :=
    of_decide_eq_true (List.find?_some (p := fun y : Evaluation => decide (y.waiting ≠ [])) hf)
  rcases mem_evaluations_upstreamPhaseEnd (hp ▸ List.mem_of_find?_eq_some hf) with hmem | ⟨ht, hx⟩
  · by_cases hlowest : ∀ z ∈ p.prediction.evaluations, z.waiting ≠ [] → e.target ≤ z.target
    · refine ⟨slot, .inl rfl, ?_, hslot'⟩
      rw [nextReader_of_lowest hl' he' hw hlowest, htarget]
    · push Not at hlowest
      obtain ⟨z, hz, hzw, hlt⟩ := hlowest
      rcases mem_evaluations_upstreamPhaseEnd (hp ▸ hz) with hzs | ⟨ht, hx⟩
      · exact absurd (hmin z hzs hzw) (not_le_of_gt hlt)
      · refine ⟨x, .inr rfl, ?_, hp ▸ hx⟩
        rw [← ht]
        refine nextReader_of_lowest hl' hz hzw fun v hv hvw => ?_
        rcases mem_evaluations_upstreamPhaseEnd (hp ▸ hv) with hvs | ⟨hv', -⟩
        · exact le_of_lt (lt_of_lt_of_le hlt (hmin v hvs hvw))
        · rw [ht, hv']
  · exact ⟨x, .inr rfl, by rw [hread, ht], hp ▸ hx⟩

theorem nextReader_fetchStart (s : State) : nextReader (fetchStart s) = nextReader s := by
  rw [nextReader, evaluations_fetchStart, nextReader]

theorem readInTurnaround_of_next (h : nextReader s = some (slotTarget slot))
    (he : (getLink slot s).window.isEvaluating = true) :
    readInTurnaround s = predictionRead (endPhases (position slot) s) := by
  rw [readInTurnaround, h]
  exact congrArg predictionRead (beginTurnaround_of_evaluating he)

/-- The phases that the queue names before a read are those that come by default. -/
theorem exec_predictionListRead_after_upstreamPhaseEnd (h : InTurn .phaseEnd slot s)
    (hl : RingLaw s) (he : e ∈ s.prediction.evaluations) (hw : e.waiting ≠ [])
    (htarget : e.target = slotTarget slot)
    (hmin : ∀ y ∈ s.prediction.evaluations, y.waiting ≠ [] → e.target ≤ y.target)
    (hslot : (getLink slot s).window.isEvaluating = true) (hx : FirstUpstream x slot s) :
    exec .predictionListRead s = exec .predictionListRead (upstreamPhaseEnd x s) := by
  obtain ⟨-, hrun, hmoment⟩ := exec_upstreamPhaseEnd_first h hx
  obtain ⟨y, hy, hread, heval⟩ :=
    nextReader_endPhase hl he hw htarget (ne_of_evaluating hslot hx.2.1) hmin hslot
  have hpos : position y = position slot := by
    rcases hy with rfl | rfl
    · rfl
    · exact hx.1
  have hend : endPhase x s = fetchStart (upstreamPhaseEnd x s) :=
    endPhase_of_upstream h.2.1.2.2 hx.2.1
  have hread' : nextReader (endPhase x s) = some (slotTarget y) := by
    rw [hend, nextReader_fetchStart, hread]
  have heval' : (getLink y (endPhase x s)).window.isEvaluating = true := by
    rw [hend, getLink_fetchStart]
    exact heval
  have hnow : nextReader s = some (slotTarget slot) := by
    rw [nextReader_of_lowest hl he hw hmin, htarget]
  rw [exec_predictionListRead h.1, exec_predictionListRead hrun, hmoment,
    takeMoment_of_ready h.2.1.2.1 h.2.1.2.2, readInTurnaround_of_next hnow hslot,
    readInTurnaround_of_next hread' heval', hpos, endPhases_endPhase hx]

/-! ### Updates between two reads (R67, R74) -/

/-- An entry whose gain is set is found with it. -/
theorem find_setGain {entries : List Entry} {y : Entry} (g : Int)
    (h : entries.find? (fun x => decide (x.target = u)) = some y) :
    findEntry (setGain entries u g) u = some { y with gain := g } := by
  have hy : y.target = u :=
    of_decide_eq_true (List.find?_some (p := fun x : Entry => decide (x.target = u)) h)
  have hcomp : (fun x : Entry => decide (x.target = u)) ∘
      (fun e : Entry => if e.target = u then { e with gain := g } else e) =
        fun x => decide (x.target = u) := by
    funext x
    simp only [Function.comp]
    split <;> rfl
  rw [findEntry, setGain, List.find?_map, hcomp, h]
  exact congrArg some (if_pos hy)

/-- A read of the active bank right after an update of the entry that it reads returns the new gain
(R74). -/
theorem readCoupling_applyUpdate {st : Step} {v : GainUpdate} {y : Entry}
    (hb : st.bank = s.store.active) (ht : st.target = u)
    (hy : (tget (s.store.bank s.store.active).lists v.source).find?
      (fun x => decide (x.target = u)) = some y) :
    readCoupling (applyUpdate s.store st.bank st.target v) s.store.active v.source u =
      some ⟨v.newGain y.gain, y.delay⟩ := by
  subst ht
  rw [(applyUpdate_of_entry hb (hb ▸ hy)).1, hb, readCoupling, bank_setBank_self]
  show Option.map _ (findEntry (tget (tset _ _ _) _) _) = _
  rw [tget_tset_self, find_setGain _ hy]
  rfl

/-- Settles O45: the grant serves the first evaluation that waits; the other clauses compare two
commands in a row. -/
theorem predictionReadsServeTheLowestTarget : Obligations.PredictionReadsServeTheLowestTarget := by
  unfold Obligations.PredictionReadsServeTheLowestTarget
  refine ⟨fun s e source more hs hl he hw hmin hbegun =>
      exec_predictionListRead_of_lowest hs hl he hw hmin hbegun,
    fun s e source more st rest v later y hs hl hbegun he hw hmin hgap hst hv hbank hactive ht
      hsource hy => ?_,
    fun slot x s e h hl he hw ht hmin hslot hx => ?_, fun s hs h => ?_⟩
  · obtain ⟨hframe, -⟩ := gainUpdate_frame (predictionWaits_eq_false_iff.2 (.inl hgap)) hst hv
    generalize hg : gainUpdate s = g at hframe
    have hpred : g.prediction = { s.prediction with gap := false } := by rw [hframe]
    have hs' : Ready g := by
      rw [hframe]
      exact hs
    have hl' : RingLaw g := by
      rw [hframe]
      exact hl
    have hbegun' : TurnaroundBegun e.target g := by
      rw [hframe]
      exact hbegun
    have hmem : ∀ y, y ∈ g.prediction.evaluations ↔ y ∈ s.prediction.evaluations := fun y => by
      rw [hpred]
    refine ⟨g, _, hg ▸ exec_gainUpdate hs,
      exec_predictionListRead_of_lowest hs' hl' ((hmem e).2 he) hw
        (fun x hx => hmin x ((hmem x).1 hx)) hbegun',
      e.granted g.store source more,
      List.mem_map.2 ⟨e, (hmem e).2 he, if_pos rfl⟩, rfl, rfl, ?_⟩
    have hstore : g.store = applyUpdate s.store st.bank st.target v := by rw [hframe]
    have hbankAt : e.bankAt g.store = s.store.active := by
      rw [hstore, Evaluation.bankAt, (applyUpdate_sameTargets _ _ _ _).2.1]
      exact hactive
    subst hsource
    rw [Evaluation.granted, hbankAt, hstore, readCoupling_applyUpdate hbank ht hy, newGain_eq]
  · exact ⟨_, (exec_upstreamPhaseEnd_first h hx).1,
      exec_predictionListRead_after_upstreamPhaseEnd h hl he hw ht hmin hslot hx⟩
  · rw [exec_predictionListRead hs.1, takeMoment_of_ready hs.2.1 hs.2.2, readInTurnaround,
      nextReader_eq_none_iff.2 h]

end

end Sys2Proof.Machine
end

section
/-! PROOF. The end of an upstream phase (R71, R157, R159), and what an evaluation takes at its
beginning (R70, R73). -/

namespace Sys2Proof.Machine

open Sys2Proof

section

variable {s t : State} {slot x : Slot} {u : Target} {e : Evaluation} {m : Option Answer}

/-! ### The beginning of an evaluation (R70, R73) -/

theorem recordTaken_snapRecord (s : State) (r : RecordNo) : RecordTaken s (snapRecord s r) :=
  ⟨rfl, rfl, rfl, rfl, rfl, fun _ _ h => residentSamples_of_resident h,
    fun h => residentSamples_eq_none h⟩

theorem slotTaken_slotSnap (slot : Slot) (s : State) : SlotTaken slot s (slotSnap slot s) := by
  refine ⟨rfl, ?_, rfl, rfl⟩
  show ((tget s.settings.slots slot).tap1.toList ++ (tget s.settings.slots slot).tap2.toList).map
    (tapSnap s) = _
  cases (tget s.settings.slots slot).tap1 <;> cases (tget s.settings.slots slot).tap2 <;> rfl

theorem snapshotTaken_snapshot (u : Target) (s : State) : SnapshotTaken u s (snapshot u s) := by
  refine ⟨?_, fun r hr => ?_, rfl, fun slot hslot => ⟨slotSnap slot s, ?_, slotTaken_slotSnap slot s⟩,
    fun hu => ?_⟩
  · show ((liveRecords s).map (snapRecord s)).map (·.number) = liveRecords s
    rw [List.map_map]
    exact List.map_id _
  · obtain ⟨n, -, rfl⟩ := List.mem_map.1 hr
    exact recordTaken_snapRecord s n
  · have hu : slotOfTarget u = some slot := below_eq_some.2 hslot.symm
    rw [snapshot, hu]
    rfl
  · have hu : slotOfTarget u = none := below_eq_none.2 hu
    rw [snapshot, hu]
    rfl

theorem readsOf_sourcesOf (u : Target) (s : State) : ReadsOf s (sourcesOf (snapshot u s)) := by
  refine List.filter_congr fun x _ => ?_
  show ((liveRecords s).map (snapRecord s)).any (fun r => decide (r.slot = x)) = _
  rw [List.any_map, liveRecords, indicesWhere, List.any_filter]
  rfl

theorem evaluationBegun_newEvaluation (u : Target) (f : Frame) (s : State) :
    EvaluationBegun u f s (newEvaluation u f s) :=
  ⟨rfl, rfl, snapshotTaken_snapshot u s, rfl, readsOf_sourcesOf u s, rfl⟩

theorem slotSnap_setFeedPhase (slot : Slot) (m : Option Answer) (b : PendingBlock) (x : Slot)
    (s : State) : slotSnap x (setFeedPhase slot m b s) = slotSnap x s := by
  have hdrive : (getLink x (setFeedPhase slot m b s)).drive = (getLink x s).drive := by
    rw [setFeedPhase, getLink_modLink]
    split <;> rfl
  unfold slotSnap
  rw [hdrive]
  rfl

theorem snapshot_setFeedPhase (slot : Slot) (m : Option Answer) (b : PendingBlock) (u : Target)
    (s : State) : snapshot u (setFeedPhase slot m b s) = snapshot u s := by
  unfold snapshot
  simp only [slotSnap_setFeedPhase]
  rfl

theorem snapshot_beginEvaluation (v : Target) (f : Frame) (u : Target) (s : State) :
    snapshot u (beginEvaluation v f s) = snapshot u s := rfl

/-! ### The count toward presence (R157) -/

/-- What counting a window leaves of a slot's link. -/
theorem countWindow_eq (g : GlobalSettings) (good : Bool) (l : LinkSlot) :
    l.countWindow g good = { l with
      detected := (l.countWindow g good).detected
      goodRun := (l.countWindow g good).goodRun
      missRun := (l.countWindow g good).missRun } := by
  unfold LinkSlot.countWindow
  split
  · split <;> rfl
  · rfl
  · rfl
  · split <;> rfl

theorem windowGood_eq_true_iff : windowGood m = true ↔ ∃ a, m = some a ∧ a.good = true := by
  cases m with
  | none => simp [windowGood]
  | some a => simp [windowGood]

variable {g : GlobalSettings} {l : LinkSlot}

theorem countWindow_of_lock (hd : l.detected = .absent) (h : g.presenceLock ≤ l.goodRun + 1) :
    l.countWindow g true = { l with detected := .present, goodRun := 0, missRun := 0 } := by
  simp only [LinkSlot.countWindow, hd]
  exact if_pos h

theorem countWindow_of_good (hd : l.detected = .absent) (h : l.goodRun + 1 < g.presenceLock) :
    l.countWindow g true = { l with goodRun := l.goodRun + 1 } := by
  simp only [LinkSlot.countWindow, hd]
  exact if_neg (not_le_of_gt h)

theorem countWindow_of_absent_missed (hd : l.detected = .absent) :
    l.countWindow g false = { l with goodRun := 0 } := by
  simp only [LinkSlot.countWindow, hd]

theorem countWindow_of_present_good (hd : l.detected = .present) :
    l.countWindow g true = { l with missRun := 0 } := by
  simp only [LinkSlot.countWindow, hd]

theorem countWindow_of_missed (hd : l.detected = .present) (h : l.missRun + 1 < g.presenceUnlock) :
    l.countWindow g false = { l with missRun := l.missRun + 1 } := by
  simp only [LinkSlot.countWindow, hd]
  exact if_neg (not_le_of_gt h)

theorem countWindow_of_unlock (hd : l.detected = .present)
    (h : g.presenceUnlock ≤ l.missRun + 1) :
    l.countWindow g false = { l with detected := .absent, goodRun := 0, missRun := 0 } := by
  simp only [LinkSlot.countWindow, hd]
  exact if_pos h

/-! ### The end of the phase (R71) -/

/-- A slot's link counted with its window. -/
def countedLink (slot : Slot) (m : Option Answer) (s : State) : LinkSlot :=
  (getLink slot s).countWindow s.settings.global (windowGood m)

/-- The state in which a window has been counted toward presence. -/
def countedState (slot : Slot) (m : Option Answer) (s : State) : State :=
  changePresence slot (LinkSlot.countWindow s.settings.global (windowGood m)) s

theorem upstreamPhaseEnd_of_upstream (hw : (getLink slot s).window = .upstream m) :
    upstreamPhaseEnd slot s = beginSlotEvaluation slot m (countedState slot m s) := by
  rw [upstreamPhaseEnd, hw]
  rfl

theorem getLink_countedState (slot : Slot) (m : Option Answer) (s : State) :
    ∃ w, getLink slot (countedState slot m s) = { countedLink slot m s with window := w } :=
  getLink_changePresence_self slot _ s

theorem effective_countedState (slot : Slot) (m : Option Answer) (s : State) :
    (getLink slot (countedState slot m s)).effective = (countedLink slot m s).effective :=
  effective_changePresence slot _ s

/-- The block that a slot's FEED waits for, by its presence (R71). -/
def firstBlock : Presence → PendingBlock
  | .present => .evaluating
  | .absent => .ready absentBlock

theorem beginSlotEvaluation_of_present (h : (getLink slot s).effective = .present) :
    beginSlotEvaluation slot m s =
      setFeedPhase slot m .evaluating (beginEvaluation (slotTarget slot) (frameOf s.now + 1) s) := by
  rw [beginSlotEvaluation, h]

theorem beginSlotEvaluation_of_absent (h : (getLink slot s).effective = .absent) :
    beginSlotEvaluation slot m s = setFeedPhase slot m (.ready absentBlock) s := by
  rw [beginSlotEvaluation, h]

theorem getLink_beginSlotEvaluation_self (slot : Slot) (m : Option Answer) (s : State) :
    getLink slot (beginSlotEvaluation slot m s) = { getLink slot s with
      window := .feedPhase m (firstBlock (getLink slot s).effective) } := by
  cases h : (getLink slot s).effective with
  | present =>
    rw [beginSlotEvaluation_of_present h, setFeedPhase, getLink_modLink, if_pos rfl]
    rfl
  | absent =>
    rw [beginSlotEvaluation_of_absent h, setFeedPhase, getLink_modLink, if_pos rfl]
    rfl

/-- The slot's link after the end of its upstream phase. -/
theorem getLink_upstreamPhaseEnd_self (hw : (getLink slot s).window = .upstream m) :
    getLink slot (upstreamPhaseEnd slot s) = { countedLink slot m s with
      window := .feedPhase m (firstBlock (countedLink slot m s).effective) } := by
  obtain ⟨w, hc⟩ := getLink_countedState slot m s
  rw [upstreamPhaseEnd_of_upstream hw, getLink_beginSlotEvaluation_self, effective_countedState, hc]

/-- The evaluation of a PRESENT slot, at its beginning. -/
theorem beginSlotEvaluation_begins (h : (getLink slot s).effective = .present) (m : Option Answer) :
    ∃ e, findEvaluation (slotTarget slot) (beginSlotEvaluation slot m s) = some e ∧
      e.snap = snapshot (slotTarget slot) (beginSlotEvaluation slot m s) ∧
      EvaluationBegun (slotTarget slot) (frameOf s.now + 1) (beginSlotEvaluation slot m s) e := by
  have hsnap : snapshot (slotTarget slot) (beginSlotEvaluation slot m s) =
      snapshot (slotTarget slot) s := by
    rw [beginSlotEvaluation_of_present h, snapshot_setFeedPhase, snapshot_beginEvaluation]
  have hstore : (beginSlotEvaluation slot m s).store = s.store := by
    rw [beginSlotEvaluation_of_present h]
    rfl
  have hnew : newEvaluation (slotTarget slot) (frameOf s.now + 1) (beginSlotEvaluation slot m s) =
      newEvaluation (slotTarget slot) (frameOf s.now + 1) s := by
    rw [newEvaluation, newEvaluation, hsnap, hstore]
  refine ⟨newEvaluation (slotTarget slot) (frameOf s.now + 1) s, ?_, hsnap.symm,
    hnew ▸ evaluationBegun_newEvaluation ..⟩
  rw [beginSlotEvaluation_of_present h]
  exact (find_beginEvaluation ..).trans (if_pos rfl)

/-- The beginning of an evaluation reaches the links, the Prediction Engine and the mark of the
last access alone. -/
theorem beginSlotEvaluation_frame (slot : Slot) (m : Option Answer) (s : State) :
    beginSlotEvaluation slot m s = { s with
      links := (beginSlotEvaluation slot m s).links
      prediction := (beginSlotEvaluation slot m s).prediction } := by
  unfold beginSlotEvaluation
  split <;> rfl

theorem enteredAbsent_beginSlotEvaluation (h : EnteredAbsent slot s t)
    (ht : (getLink slot t).effective = .absent) :
    EnteredAbsent slot s (beginSlotEvaluation slot m t) := by
  rw [beginSlotEvaluation_of_absent ht]
  exact h

theorem enteredPresent_beginSlotEvaluation (h : EnteredPresent slot s t) :
    EnteredPresent slot s (beginSlotEvaluation slot m t) := by
  rw [beginSlotEvaluation_frame]
  exact h

/-- Settles O34: the count, the entry actions, and the beginning of the evaluation. -/
theorem upstreamPhaseEndsCountPresenceAndEvaluate :
    Obligations.UpstreamPhaseEndsCountPresenceAndEvaluate := by
  unfold Obligations.UpstreamPhaseEndsCountPresenceAndEvaluate
  intro slot s m h hw g l good
  have hself := getLink_upstreamPhaseEnd_self hw
  have hisGood : good → windowGood m = true := windowGood_eq_true_iff.2
  have hmissed : ¬ good → windowGood m = false := fun hn =>
    Bool.eq_false_iff.2 fun hg => hn (windowGood_eq_true_iff.1 hg)
  have hcounted : ∀ b, windowGood m = b → countedLink slot m s = l.countWindow g b := fun b hb => by
    rw [countedLink, hb]
  have heff : (getLink slot (upstreamPhaseEnd slot s)).effective =
      (countedLink slot m s).effective := by
    rw [hself]
    rfl
  refine ⟨upstreamPhaseEnd slot s, inTurn_of_inTurn _ slot _ h, fun hd hg hl => ?_,
    fun hd hg hl => ?_, fun hd hg => ?_, fun hd hg => ?_, fun hd hg hl => ?_, fun hd hg hl => ?_,
    ?_, ?_, fun x hx => getLink_upstreamPhaseEnd_of_ne hx s, fun hp => ?_, fun ha => ?_,
    fun hl ha => ?_, fun hl hp => ?_, fun hsame => ?_⟩
  · rw [hself, hcounted _ (hisGood hg), countWindow_of_lock hd hl]
    exact ⟨rfl, rfl, rfl⟩
  · rw [hself, hcounted _ (hisGood hg), countWindow_of_good hd hl]
    exact ⟨hd, rfl⟩
  · rw [hself, hcounted _ (hmissed hg), countWindow_of_absent_missed hd]
    exact ⟨hd, rfl⟩
  · rw [hself, hcounted _ (hisGood hg), countWindow_of_present_good hd]
    exact ⟨hd, rfl⟩
  · rw [hself, hcounted _ (hmissed hg), countWindow_of_missed hd hl]
    exact ⟨hd, rfl⟩
  · rw [hself, hcounted _ (hmissed hg), countWindow_of_unlock hd hl]
    exact ⟨rfl, rfl, rfl⟩
  · rw [hself, countedLink, countWindow_eq]
  · rw [hself, countedLink, countWindow_eq]
  · rw [heff] at hp
    refine ⟨by rw [hself, hp]; rfl, ?_⟩
    have hp' := (effective_countedState slot m s).trans hp
    obtain ⟨e, hf, hsnap, hbegun⟩ := beginSlotEvaluation_begins hp' m
    rw [countedState, now_changePresence, ← countedState, ← upstreamPhaseEnd_of_upstream hw]
      at hbegun
    rw [← upstreamPhaseEnd_of_upstream hw] at hf hsnap
    exact ⟨e, mem_of_findEvaluation hf, hf, hsnap, hbegun⟩
  · rw [heff] at ha
    rw [hself, ha]
    rfl
  · rw [heff] at ha
    rw [upstreamPhaseEnd_of_upstream hw]
    refine enteredAbsent_beginSlotEvaluation ?_ ((effective_countedState slot m s).trans ha)
    rw [countedState, changePresence_of_absent _ hl ha]
    exact enterAbsent_spec slot (modLink slot _ s)
  · rw [heff] at hp
    rw [upstreamPhaseEnd_of_upstream hw]
    refine enteredPresent_beginSlotEvaluation ?_
    rw [countedState, changePresence_of_present _ hl hp]
    exact enterPresent_spec slot (modLink slot _ s)
  · rw [heff] at hsame
    rw [upstreamPhaseEnd_of_upstream hw, countedState, changePresence_of_same _ hsame,
      beginSlotEvaluation_frame]
    rfl

end

end Sys2Proof.Machine
end

section
/-! PROOF. The end of a window's evaluations on the eight rows, and the FEED
(R71, R73, R91, R152, R161). -/

namespace Sys2Proof.Machine

open Sys2Proof

section

variable {s t s0 : State} {slot x y : Slot} {u : Target} {e : Evaluation} {m : Option Answer}
  {p : SlotSnap} {source : Slot} {more : List Slot}

/-! ### What the end of one slot's evaluation reaches -/

/-- The blocks that the end of evaluations reaches. -/
def EngineChange (s t : State) : Prop := ∃ l q g, t = { s with
  links := l, prediction := q, adaptation := { s.adaptation with gap := g } }

theorem EngineChange.refl (s : State) : EngineChange s s :=
  ⟨s.links, s.prediction, s.adaptation.gap, rfl⟩

theorem EngineChange.trans {r : State} (h : EngineChange s t) (h' : EngineChange t r) :
    EngineChange s r := by
  obtain ⟨l, q, g, rfl⟩ := h
  obtain ⟨l', q', g', rfl⟩ := h'
  exact ⟨l', q', g', rfl⟩

theorem engineChange_readThrough (u : Target) (s : State) : EngineChange s (readThrough u s) := by
  unfold readThrough
  split
  · exact ⟨_, _, _, rfl⟩
  · exact .refl s

theorem engineChange_endInto (e : Evaluation) (bank : BankName) (s : State) :
    EngineChange s (endInto e bank s) :=
  ⟨_, _, s.adaptation.gap, endInto_eq e bank s⟩

/-- The end of a slot's evaluation by the end of its turnaround. -/
theorem endSlotEvaluation_cases (slot : Slot) (s : State) : endSlotEvaluation slot s = s ∨
    endSlotEvaluation slot s = readThrough (slotTarget slot) s ∨
    ∃ e bank, e.target = slotTarget slot ∧
      endSlotEvaluation slot s = endInto e bank (readThrough (slotTarget slot) s) := by
  unfold endSlotEvaluation finishEvaluation
  split
  · split
    · refine .inr ?_
      unfold evaluationEnd
      split
      · next e he =>
        unfold endOf
        split
        · exact .inr ⟨e, _, findEvaluation_target he, rfl⟩
        · exact .inl rfl
      · exact .inl rfl
    · exact .inl rfl
  · exact .inl rfl

theorem engineChange_endSlotEvaluation (slot : Slot) (s : State) :
    EngineChange s (endSlotEvaluation slot s) := by
  rcases endSlotEvaluation_cases slot s with h | h | ⟨e, bank, -, h⟩
  · rw [h]
    exact .refl s
  · rw [h]
    exact engineChange_readThrough _ s
  · rw [h]
    exact (engineChange_readThrough _ s).trans (engineChange_endInto ..)

theorem engineChange_endEvaluations (w : Nat) (s : State) : EngineChange s (endEvaluations w s) := by
  unfold endEvaluations
  generalize slotsAt w = l
  induction l generalizing s with
  | nil => exact .refl s
  | cons y l ih => exact (engineChange_endSlotEvaluation y s).trans (ih _)

theorem store_endSlotEvaluation (slot : Slot) (s : State) :
    (endSlotEvaluation slot s).store = s.store := by
  obtain ⟨l, q, g, h⟩ := engineChange_endSlotEvaluation slot s
  rw [h]

theorem getRing_readThrough (u v : Target) (s : State) :
    getRing v (readThrough u s) = getRing v s := by
  unfold readThrough
  split <;> rfl

theorem getRing_endInto_of_ne (h : u ≠ e.target) (bank : BankName) (s : State) :
    getRing u (endInto e bank s) = getRing u s := by
  rw [getRing, endInto_prediction]
  exact tget_tset_of_ne _ _ h

theorem getRing_endSlotEvaluation_of_ne (h : u ≠ slotTarget slot) (s : State) :
    getRing u (endSlotEvaluation slot s) = getRing u s := by
  rcases endSlotEvaluation_cases slot s with he | he | ⟨e, bank, ht, he⟩
  · rw [he]
  · rw [he, getRing_readThrough]
  · rw [he, getRing_endInto_of_ne (ht ▸ h), getRing_readThrough]

theorem findEvaluation_endInto_of_ne (h : u ≠ e.target) (bank : BankName) (s : State) :
    findEvaluation u (endInto e bank s) = findEvaluation u s := by
  rw [findEvaluation, endInto_prediction]
  exact find_filter_evaluations h _

theorem findEvaluation_endInto_self (e : Evaluation) (bank : BankName) (s : State) :
    findEvaluation e.target (endInto e bank s) = none := by
  rw [findEvaluation, endInto_prediction]
  exact findEvaluation_dropEvaluation e.target s

/-- Another slot's evaluation stands, or has had its reads made before (R73). -/
theorem findEvaluation_endSlotEvaluation_of_ne (h : u ≠ slotTarget slot) (s : State) :
    ∃ f : Evaluation → Evaluation, (∀ e, f e = e ∨ f e = e.readAll s.store) ∧
      findEvaluation u (endSlotEvaluation slot s) = (findEvaluation u s).map f := by
  rcases endSlotEvaluation_cases slot s with he | he | ⟨e, bank, ht, he⟩
  · exact ⟨id, fun _ => .inl rfl, by rw [he, Option.map_id, id]⟩
  · refine ⟨_, fun e => ?_, by rw [he, find_readThrough]⟩
    split
    · exact .inr rfl
    · exact .inl rfl
  · refine ⟨_, fun e => ?_, by rw [he, findEvaluation_endInto_of_ne (ht ▸ h), find_readThrough]⟩
    split
    · exact .inr rfl
    · exact .inl rfl

theorem endSlotEvaluation_of_not_evaluating (h : (getLink slot s).window.isEvaluating = false) :
    endSlotEvaluation slot s = s := by
  rw [endSlotEvaluation, h, if_neg Bool.false_ne_true]

/-! ### The reads made at once (R73) -/

theorem readAll_readAll (e : Evaluation) (c : CouplingStore) :
    (e.readAll c).readAll c = e.readAll c := by
  refine readAll_of_nothing_waiting _ c ?_
  unfold Evaluation.readAll
  split
  · assumption
  · rfl

theorem bankAt_readAll (e : Evaluation) (c : CouplingStore) :
    (e.readAll c).bankAt c = e.bankAt c := by
  unfold Evaluation.readAll
  split <;> rfl

/-- An evaluation that can end, after the reads it waits for. -/
theorem readAll_eq (c : CouplingStore) (h : e.awaited = true) : e.readAll c = { e with
    bank := some (e.bankAt c)
    done := e.done ++ e.waiting.map fun source => ⟨source, readCoupling c (e.bankAt c) source e.target⟩
    waiting := [] } := by
  obtain ⟨hw, hb⟩ := readAll_ends c h
  cases hwait : e.waiting with
  | cons a l =>
    unfold Evaluation.readAll
    rw [hwait]
  | nil =>
    rw [readAll_of_nothing_waiting e c hwait] at hb ⊢
    obtain ⟨target, frame, bank, snap, done, waiting⟩ := e
    obtain rfl : waiting = [] := hwait
    cases bank with
    | none => cases hb
    | some name =>
      rw [List.map_nil, List.append_nil]
      rfl

theorem readAll_granted (c : CouplingStore) (hw : e.waiting = source :: more) :
    (e.granted c source more).readAll c = e.readAll c := by
  cases more with
  | nil => simp [Evaluation.readAll, Evaluation.granted, hw]
  | cons a l => simp [Evaluation.readAll, Evaluation.granted, hw, Evaluation.bankAt]

/-! ### The end of the evaluations of a window -/

/-- A slot whose evaluation of a state s0 has ended into its ring, with its block ready. -/
def EndedFrom (x : Slot) (m : Option Answer) (e : Evaluation) (p : SlotSnap) (s0 t : State) : Prop :=
  getLink x t = { getLink x s0 with window := .feedPhase m (.ready
    (slotBlock p (predictedSums (e.readAll s0.store)) (partialOf (e.readAll s0.store)))) } ∧
  getRing (slotTarget x) t = pushRing (evalRecord (e.readAll s0.store) (e.bankAt s0.store))
    (getRing (slotTarget x) s0) ∧
  findEvaluation (slotTarget x) t = none

/-- A slot that still waits for it. -/
def WaitsFrom (x : Slot) (e : Evaluation) (s0 t : State) : Prop :=
  getLink x t = getLink x s0 ∧ getRing (slotTarget x) t = getRing (slotTarget x) s0 ∧
    ∃ e', findEvaluation (slotTarget x) t = some e' ∧ (e' = e ∨ e' = e.readAll s0.store)

theorem EndedFrom.endSlotEvaluation (h : EndedFrom x m e p s0 s) (y : Slot) :
    EndedFrom x m e p s0 (endSlotEvaluation y s) := by
  obtain ⟨hlink, hring, hfind⟩ := h
  by_cases hy : x = y
  · subst hy
    rw [endSlotEvaluation_of_not_evaluating (by rw [hlink]; rfl)]
    exact ⟨hlink, hring, hfind⟩
  · obtain ⟨f, -, hf⟩ := findEvaluation_endSlotEvaluation_of_ne (slotTarget_ne hy) s
    refine ⟨?_, ?_, ?_⟩
    · rw [getLink_endSlotEvaluation_of_ne hy, hlink]
    · rw [getRing_endSlotEvaluation_of_ne (slotTarget_ne hy), hring]
    · rw [hf, hfind, Option.map_none]

theorem WaitsFrom.endSlotEvaluation_of_ne (h : WaitsFrom x e s0 s) (hs : s.store = s0.store)
    (hy : x ≠ y) : WaitsFrom x e s0 (endSlotEvaluation y s) := by
  obtain ⟨hlink, hring, e', hfind, he⟩ := h
  obtain ⟨f, hf, heq⟩ := findEvaluation_endSlotEvaluation_of_ne (slotTarget_ne hy) s
  refine ⟨?_, ?_, f e', ?_, ?_⟩
  · rw [getLink_endSlotEvaluation_of_ne hy, hlink]
  · rw [getRing_endSlotEvaluation_of_ne (slotTarget_ne hy), hring]
  · rw [heq, hfind, Option.map_some]
  · rw [hs] at hf
    rcases hf e' with h1 | h1
    · rw [h1]
      exact he
    · rw [h1]
      rcases he with rfl | rfl
      · exact .inr rfl
      · exact .inr (readAll_readAll e _)

theorem WaitsFrom.endSlotEvaluation_self (h : WaitsFrom x e s0 s) (hs : s.store = s0.store)
    (hwin : (getLink x s0).window = .feedPhase m .evaluating) (he : e.awaited = true)
    (hp : e.snap.slotPart = some p) : EndedFrom x m e p s0 (endSlotEvaluation x s) := by
  obtain ⟨hlink, hring, e', hfind, he'⟩ := h
  have hawaited : e'.awaited = true := by
    rcases he' with rfl | rfl
    · exact he
    · exact readAll_awaited he
  have hread : e'.readAll s.store = e.readAll s0.store := by
    rw [hs]
    rcases he' with rfl | rfl
    · rfl
    · exact readAll_readAll e _
  have hbank : e'.bankAt s.store = e.bankAt s0.store := by
    rw [hs]
    rcases he' with rfl | rfl
    · rfl
    · exact bankAt_readAll e _
  have htarget : (e.readAll s0.store).target = slotTarget x := by
    rw [← hread, (readAll_spec s.store e').1]
    exact findEvaluation_target hfind
  have hpart : (e.readAll s0.store).snap.slotPart = some p := by
    rw [(readAll_spec s0.store e).2.1, hp]
  have heval : endSlotEvaluation x s = endInto (e.readAll s0.store) (e.bankAt s0.store)
      (readThrough (slotTarget x) s) := by
    rw [endSlotEvaluation, hlink, hwin]
    exact (finishEvaluation_eq hfind hawaited).trans (by rw [hread, hbank])
  refine ⟨?_, ?_, ?_⟩
  · rw [heval, getLink_endInto, if_pos htarget.symm, hpart, getLink_readThrough, hlink]
    simp only [hwin, Window.ready]
  · rw [heval, getRing, endInto_prediction, htarget, getRing_readThrough, hring]
    exact tget_tset_self ..
  · rw [heval, ← htarget]
    exact findEvaluation_endInto_self ..

/-- After the end of a window's evaluations, those that its slots waited for have ended. -/
theorem endedFrom_endEvaluations (hx : position x = position slot)
    (hwin : (getLink x s).window = .feedPhase m .evaluating)
    (hf : findEvaluation (slotTarget x) s = some e) (he : e.awaited = true)
    (hp : e.snap.slotPart = some p) : EndedFrom x m e p s (endEvaluations (position slot) s) := by
  refine (foldl_slotsAt (w := position slot)
    (I := fun t => t.store = s.store ∧ (WaitsFrom x e s t ∨ EndedFrom x m e p s t))
    (Q := fun y t => y = x → EndedFrom x m e p s t)
    (f := fun t y => endSlotEvaluation y t)
    (fun t y _ ⟨hs, ht⟩ => ⟨(store_endSlotEvaluation y t).trans hs, ?_⟩)
    (fun t y _ ⟨hs, ht⟩ hyx => ?_) (fun t y z _ ⟨hs, ht⟩ hz hzx => (hz hzx).endSlotEvaluation y)
    s ⟨rfl, .inl ⟨rfl, rfl, e, hf, .inl rfl⟩⟩).2 x hx rfl
  · rcases ht with ht | ht
    · by_cases hy : x = y
      · subst hy
        exact .inr (ht.endSlotEvaluation_self hs hwin he hp)
      · exact .inl (ht.endSlotEvaluation_of_ne hs hy)
    · exact .inr (ht.endSlotEvaluation y)
  · subst hyx
    rcases ht with ht | ht
    · exact ht.endSlotEvaluation_self hs hwin he hp
    · exact ht.endSlotEvaluation y

/-- A slot of another window, or whose window waits for no evaluation, stands. -/
theorem endEvaluations_others
    (h : position x ≠ position slot ∨ (getLink x s).window.isEvaluating = false) :
    getLink x (endEvaluations (position slot) s) = getLink x s ∧
      getRing (slotTarget x) (endEvaluations (position slot) s) = getRing (slotTarget x) s := by
  refine (foldl_slotsAt (w := position slot)
    (I := fun t => getLink x t = getLink x s ∧ getRing (slotTarget x) t = getRing (slotTarget x) s)
    (Q := fun _ _ => True) (f := fun t y => endSlotEvaluation y t)
    (fun t y hy ⟨hl, hr⟩ => ?_) (fun _ _ _ _ => trivial) (fun _ _ _ _ _ _ => trivial) s
    ⟨rfl, rfl⟩).1
  by_cases hyx : x = y
  · subst hyx
    rw [endSlotEvaluation_of_not_evaluating (by rw [hl]; exact h.resolve_left (absurd hy ·))]
    exact ⟨hl, hr⟩
  · rw [getLink_endSlotEvaluation_of_ne hyx, getRing_endSlotEvaluation_of_ne (slotTarget_ne hyx)]
    exact ⟨hl, hr⟩

theorem stationTarget_ne_slotTarget (k : Station) (x : Slot) : stationTarget k ≠ slotTarget x :=
  fun h => by
    have := congrArg Fin.val h
    simp only [stationTarget, slotTarget] at this
    omega

theorem getRing_endEvaluations_station (k : Station) (w : Nat) (s : State) :
    getRing (stationTarget k) (endEvaluations w s) = getRing (stationTarget k) s :=
  foldl_keeps (getRing (stationTarget k)) (fun s y => endSlotEvaluation y s)
    (fun s y => getRing_endSlotEvaluation_of_ne (stationTarget_ne_slotTarget k y) s) _ s

end

end Sys2Proof.Machine
end

section
/-! PROOF. A read granted before the FEED phase begins, and the FEED (R65, R71, R73, R152, R161). -/

namespace Sys2Proof.Machine

open Sys2Proof

section

variable {s t : State} {slot x y : Slot} {u : Target} {e : Evaluation} {m : Option Answer}
  {b : Block} {source : Slot} {more : List Slot}

/-! ### A granted read changes nothing that the end of the evaluations does not (R73) -/

/-- The state after the grant of an evaluation's next read. -/
def served (e : Evaluation) (source : Slot) (more : List Slot) (s : State) : State := { s with
  adaptation := { s.adaptation with gap := false }
  prediction := { s.prediction with
    gap := true
    evaluations := s.prediction.evaluations.map fun x =>
      if x.target = e.target then e.granted s.store source more else x } }

/-- An evaluation in flight that waits for a read, with the lowest target among those that do. -/
structure Lowest (e : Evaluation) (s : State) : Prop where
  mem : e ∈ s.prediction.evaluations
  unique : ∀ x ∈ s.prediction.evaluations, x.target = e.target → x = e
  lowest : ∀ x ∈ s.prediction.evaluations, x.waiting ≠ [] → e.target ≤ x.target

theorem target_served (e : Evaluation) (c : CouplingStore) (source : Slot) (more : List Slot)
    (x : Evaluation) :
    (if x.target = e.target then e.granted c source more else x).target = x.target := by
  split
  · next h => exact h.symm
  · rfl

theorem findEvaluation_served (u : Target) (s : State) :
    findEvaluation u (served e source more s) = (findEvaluation u s).map fun x =>
      if x.target = e.target then e.granted s.store source more else x :=
  find_map_evaluations (target_served e s.store source more) u s.prediction.evaluations

theorem findEvaluation_served_of_ne (h : u ≠ e.target) (s : State) :
    findEvaluation u (served e source more s) = findEvaluation u s := by
  rw [findEvaluation_served]
  rcases hf : findEvaluation u s with _ | x
  · rfl
  · rw [Option.map_some, if_neg (by rw [findEvaluation_target hf]; exact h)]

theorem isSome_findEvaluation_served (u : Target) (s : State) :
    (findEvaluation u (served e source more s)).isSome = (findEvaluation u s).isSome := by
  rw [findEvaluation_served, Option.isSome_map]

/-- Below the lowest target that waits there is no read to make. -/
theorem readThrough_of_below (hl : Lowest e s) (hu : u < e.target) : readThrough u s = s := by
  rw [readThrough, if_neg]
  simp only [List.any_eq_true, Bool.and_eq_true, decide_eq_true_eq, not_exists, not_and]
  exact fun x hx hle hw => absurd (lt_of_le_of_lt hle hu) (not_lt_of_ge (hl.lowest x hx hw))

theorem readThrough_served_of_below (hl : Lowest e s) (hu : u < e.target) :
    readThrough u (served e source more s) = served e source more s := by
  rw [readThrough, if_neg]
  simp only [List.any_eq_true, Bool.and_eq_true, decide_eq_true_eq, not_exists, not_and]
  intro x hx hle hw
  obtain ⟨y, hy, rfl⟩ := List.mem_map.1 hx
  rw [target_served] at hle
  have hlt := lt_of_le_of_lt hle hu
  rw [if_neg (ne_of_lt hlt)] at hw
  exact absurd hlt (not_lt_of_ge (hl.lowest y hy hw))

/-- From the lowest target that waits on, the reads made at once include the granted one. -/
theorem readThrough_served (hl : Lowest e s) (hw : e.waiting = source :: more) (hu : e.target ≤ u) :
    readThrough u (served e source more s) = readThrough u s := by
  have hevals : (readThrough u (served e source more s)).prediction.evaluations =
      (readThrough u s).prediction.evaluations := by
    rw [readThrough_evaluations, readThrough_evaluations]
    show List.map _ (List.map _ s.prediction.evaluations) = _
    rw [List.map_map]
    refine List.map_congr_left fun x hx => ?_
    simp only [Function.comp, target_served]
    by_cases hx' : x.target = e.target
    · rw [if_pos hx', hl.unique x hx hx', if_pos hu, if_pos hu]
      exact readAll_granted s.store hw
    · rw [if_neg hx']
      rfl
  have hserved : readThrough u (served e source more s) = setGaps true false (setEvaluations
      (readThrough u (served e source more s)).prediction.evaluations s) := by
    unfold readThrough
    split <;> rfl
  have hread : readThrough u s = setGaps true false (setEvaluations
      (readThrough u s).prediction.evaluations s) := by
    have hany : (s.prediction.evaluations.any fun e =>
        decide (e.target ≤ u) && decide (e.waiting ≠ [])) = true :=
      List.any_eq_true.2 ⟨e, hl.mem, by simp [hu, hw]⟩
    rw [readThrough, if_pos hany]
    rfl
  rw [hserved, hread, hevals]

/-- The end of another evaluation passes a granted read. -/
theorem endInto_served (f : Evaluation) (bank : BankName) (s : State) :
    endInto f bank (served e source more s) = served e source more (endInto f bank s) := by
  have hfilter : (s.prediction.evaluations.map fun x =>
        if x.target = e.target then e.granted s.store source more else x).filter
          (fun x => decide (x.target ≠ f.target)) =
      (s.prediction.evaluations.filter fun x => decide (x.target ≠ f.target)).map fun x =>
        if x.target = e.target then e.granted s.store source more else x := by
    rw [List.filter_map]
    congr 1
    refine List.filter_congr fun x _ => ?_
    simp only [Function.comp, target_served]
  have hdrop : dropEvaluation f.target (served e source more s) =
      served e source more (dropEvaluation f.target s) := by
    show setEvaluations (List.filter _ (List.map _ _)) _ = _
    rw [hfilter]
    rfl
  unfold endInto
  rw [hdrop]
  dsimp only
  split <;> rfl

theorem Lowest.endInto {f : Evaluation} (hl : Lowest e s) (h : f.target ≠ e.target)
    (bank : BankName) : Lowest e (endInto f bank s) := by
  have hmem : ∀ x, x ∈ (Machine.endInto f bank s).prediction.evaluations ↔
      x ∈ s.prediction.evaluations ∧ x.target ≠ f.target := fun x => by
    rw [endInto_prediction]
    simp only [List.mem_filter, decide_eq_true_eq]
  exact ⟨(hmem e).2 ⟨hl.mem, h.symm⟩, fun x hx => hl.unique x ((hmem x).1 hx).1,
    fun x hx => hl.lowest x ((hmem x).1 hx).1⟩

/-- The end of an evaluation of a lower target passes a granted read. -/
theorem finishEvaluation_served_of_below (hl : Lowest e s) (hu : u < e.target) :
    finishEvaluation u (served e source more s) = served e source more (finishEvaluation u s) ∧
      Lowest e (finishEvaluation u s) := by
  unfold finishEvaluation
  rw [isSome_findEvaluation_served]
  split
  · rw [readThrough_served_of_below hl hu, readThrough_of_below hl hu]
    unfold evaluationEnd
    rw [findEvaluation_served_of_ne (ne_of_lt hu)]
    rcases hf : findEvaluation u s with _ | f
    · exact ⟨rfl, hl⟩
    · have hne : f.target ≠ e.target := by
        rw [findEvaluation_target hf]
        exact ne_of_lt hu
      dsimp only
      unfold endOf
      split
      · exact ⟨endInto_served f _ s, hl.endInto hne _⟩
      · exact ⟨rfl, hl⟩
  · exact ⟨rfl, hl⟩

/-- The end of an evaluation in flight with that target or one above makes the granted read too. -/
theorem finishEvaluation_served (hl : Lowest e s) (hw : e.waiting = source :: more)
    (hu : e.target ≤ u) (hf : (findEvaluation u s).isSome = true) :
    finishEvaluation u (served e source more s) = finishEvaluation u s := by
  rw [finishEvaluation, isSome_findEvaluation_served, finishEvaluation, if_pos hf, if_pos hf,
    readThrough_served hl hw hu]

theorem getLink_served (y : Slot) (s : State) : getLink y (served e source more s) = getLink y s :=
  rfl

/-- So the ends of the evaluations of a window come to the same, where one of them has the target of
the granted read or one above. -/
theorem foldl_endSlotEvaluation_served (hw : e.waiting = source :: more) (hx : e.target ≤ slotTarget x)
    (l : List Slot) : ∀ s : State, Lowest e s → WindowLaw s → x ∈ l →
      (getLink x s).window.isEvaluating = true →
      l.foldl (fun s y => endSlotEvaluation y s) (served e source more s) =
        l.foldl (fun s y => endSlotEvaluation y s) s := by
  induction l with
  | nil => exact fun _ _ _ h => absurd h List.not_mem_nil
  | cons y l ih =>
    intro s hl hlaw hmem heval
    have hlaw' : WindowLaw (endSlotEvaluation y s) :=
      plain_keeps_windowLaw (endSlotEvaluation_plain y s) hlaw
    have hrest : ∀ h : x ≠ y, x ∈ l ∧
        (getLink x (endSlotEvaluation y s)).window.isEvaluating = true := fun h =>
      ⟨(List.mem_cons.1 hmem).resolve_left h, by rw [getLink_endSlotEvaluation_of_ne h]; exact heval⟩
    rw [List.foldl_cons, List.foldl_cons]
    by_cases hy : (getLink y s).window.isEvaluating = true
    · have hfin : endSlotEvaluation y s = finishEvaluation (slotTarget y) s := if_pos hy
      have hfin' : endSlotEvaluation y (served e source more s) =
          finishEvaluation (slotTarget y) (served e source more s) := if_pos hy
      by_cases hlt : slotTarget y < e.target
      · obtain ⟨heq, hl'⟩ := finishEvaluation_served_of_below (source := source) (more := more) hl hlt
        have hxy : x ≠ y := fun h => absurd (lt_of_lt_of_le hlt hx) (by rw [h]; exact lt_irrefl _)
        rw [hfin', heq, ← hfin]
        exact ih _ (hfin ▸ hl') hlaw' (hrest hxy).1 (hrest hxy).2
      · have hsome : (findEvaluation (slotTarget y) s).isSome = true := by
          have := hlaw.2.2 y hy
          rcases hf : findEvaluation (slotTarget y) s with _ | f
          · rw [hf] at this
            cases this
          · rfl
        rw [hfin', finishEvaluation_served hl hw (not_lt.1 hlt) hsome, ← hfin]
    · have hno : (getLink y s).window.isEvaluating = false := Bool.eq_false_iff.2 hy
      have hxy : x ≠ y := fun h => hy (h ▸ heval)
      rw [endSlotEvaluation_of_not_evaluating (s := served e source more s) hno,
        endSlotEvaluation_of_not_evaluating hno]
      exact ih s hl hlaw ((List.mem_cons.1 hmem).resolve_left hxy) heval

/-! ### The FEED (R161) -/

theorem exec_feed (h : InTurn .feed slot s) :
    exec (.feed slot) s = .next (sendReady slot (openFeedPhases (position slot) s)) := by
  show execFeed slot s = _
  rw [execFeed, inTurn_of_inTurn _ _ _ h]

theorem openFeedPhases_of_feeds (h : Feeds slot s) :
    openFeedPhases (position slot) s = endEvaluations (position slot) s := by
  rw [openFeedPhases, endPhases_of_ended _ h.2]

theorem endEvaluations_endEvaluations (hs : WindowLaw s) (w : Nat) :
    endEvaluations w (endEvaluations w s) = endEvaluations w s := by
  refine endEvaluations_of_ended w fun x hx => ?_
  exact (foldl_slotsAt (w := w) (I := WindowLaw)
    (Q := fun x s => (getLink x s).window.isEvaluating = false)
    (f := fun s x => endSlotEvaluation x s)
    (fun s x _ hs => plain_keeps_windowLaw (endSlotEvaluation_plain x s) hs)
    (fun s x _ hs => isEvaluating_endSlotEvaluation x (windowLaw_iff.1 hs).2.2)
    (fun s x y _ hs hy => by
      by_cases he : y = x
      · rw [he]
        exact isEvaluating_endSlotEvaluation x (windowLaw_iff.1 hs).2.2
      · rw [getLink_endSlotEvaluation_of_ne he]
        exact hy) s hs).2 x hx

theorem feeds_of_engineChange (h : Feeds slot s) (hc : EngineChange s t)
    (hover : ∀ x : Slot, position x ≠ position slot → getLink x t = getLink x s)
    (hup : ∀ x : Slot, position x = position slot → (getLink x t).window.isUpstream = false) :
    Feeds slot t := by
  obtain ⟨⟨hs, hd, hearlier, hcome⟩, -⟩ := h
  have hearlier' : EarlierWindowsOver slot t := fun x hx => by
    rw [hover x (ne_of_lt hx)]
    exact hearlier x hx
  obtain ⟨l, q, g, rfl⟩ := hc
  exact ⟨⟨hs, hd, hearlier', hcome⟩, hup⟩

theorem feeds_endEvaluations (h : Feeds slot s) : Feeds slot (endEvaluations (position slot) s) := by
  refine feeds_of_engineChange h (engineChange_endEvaluations _ s)
    (fun x hx => (endEvaluations_others (.inl hx)).1) fun x hx => ?_
  rw [(plain_window (endEvaluations_plain _ s) x).isUpstream]
  exact h.2 x hx

/-- The evaluation with the lowest target that waits is of no later window than that of a slot that
waits for a higher one. -/
theorem turnaroundBegun_of_lowest (h : Feeds slot s) (hlaw : WindowLaw s)
    (hx : position x = position slot) (heval : (getLink x s).window.isEvaluating = true) (u : Target) :
    TurnaroundBegun u s := by
  intro y _ hy z hz
  by_cases hpos : position y = position slot
  · exact h.2 z (hz.trans hpos)
  · have hyover : (getLink y s).window ≠ .over := fun ho => by
      rw [ho] at hy
      cases hy
    have hge : ¬ position y < position slot := fun hlt => hyover (h.1.2.2.1 y hlt)
    have hover := hlaw.1 y (fun hw => by rw [hw] at hy; cases hy) x (by omega)
    rw [hover] at heval
    cases heval

theorem frameTag_next (n : Time) : frameTag (frameOf n + 1) = (n.toNat / 8 + 1) % 8 := by
  have hone : (1 : Frame).toNat = 1 := rfl
  simp only [frameTag, frameOf, BitVec.toNat_add, BitVec.toNat_setWidth, BitVec.toNat_ushiftRight,
    Nat.shiftRight_eq_div_pow, hone]
  omega

theorem sendReady_of_ready (h : (getLink slot s).window = .feedPhase m (.ready b)) :
    sendReady slot s = sendFeed slot m b s := by
  rw [sendReady, h]

/-- A read granted before the FEED phase changes nothing of the FEED. -/
theorem exec_feed_after_read (h : Feeds slot s) (hlaw : WindowLaw s) (hring : RingLaw s)
    (hx : position x = position slot) (heval : (getLink x s).window.isEvaluating = true)
    (he : e ∈ s.prediction.evaluations) (hw : e.waiting = source :: more)
    (hle : e.target ≤ slotTarget x)
    (hmin : ∀ y ∈ s.prediction.evaluations, y.waiting ≠ [] → e.target ≤ y.target) :
    exec .predictionListRead s = .next (served e source more s) ∧
      exec (.feed slot) s = exec (.feed slot) (served e source more s) := by
  refine ⟨exec_predictionListRead_of_lowest ⟨h.1.1, h.1.2.1.2.1, h.1.2.1.2.2⟩ hring he hw hmin
    (turnaroundBegun_of_lowest h hlaw hx heval e.target), ?_⟩
  have hl : Lowest e s := ⟨he, fun y hy ht => Option.some.inj
    ((findEvaluation_of_mem hring hy).symm.trans (ht ▸ findEvaluation_of_mem hring he)), hmin⟩
  have h' : Feeds slot (served e source more s) :=
    feeds_of_engineChange h ⟨_, _, _, rfl⟩ (fun _ _ => rfl) h.2
  rw [exec_feed h.1, exec_feed h'.1, openFeedPhases_of_feeds h, openFeedPhases_of_feeds h',
    endEvaluations, endEvaluations, foldl_endSlotEvaluation_served hw hle _ s hl hlaw
      ((mem_slotsAt _ x).2 hx) heval]

theorem placeCome_phaseEnd_of_feed (h : placeCome .feed slot s = true) :
    placeCome .phaseEnd slot s = true := by
  have hfeed := of_decide_eq_true h
  refine decide_eq_true ?_
  simp only [Place.bit] at hfeed ⊢
  omega

/-- A FEED named while its window's upstream phase stands open on its own row alone. -/
theorem exec_feed_after_upstreamPhaseEnd (h : InTurn .feed slot s)
    (hup : (getLink slot s).window.isUpstream = true)
    (hothers : ∀ x : Slot, x ≠ slot → position x = position slot →
      (getLink x s).window.isUpstream = false) :
    exec (.upstreamPhaseEnd slot) s = .next (upstreamPhaseEnd slot s) ∧
      exec (.feed slot) s = exec (.feed slot) (upstreamPhaseEnd slot s) := by
  have hfirst : FirstUpstream slot slot s := ⟨rfl, hup, fun y hy => hothers y (ne_of_lt hy)⟩
  obtain ⟨hs, hd, hover, hcome⟩ := h
  obtain ⟨hexec, hrun, hmoment⟩ := exec_upstreamPhaseEnd_first
    ⟨hs, hd, hover, placeCome_phaseEnd_of_feed hcome⟩ hfirst
  have hfollow := (exec_eq_exec_takeMoment (c := .feed slot) hrun
    (fun r => ⟨nofun, nofun, nofun⟩) nofun).2 rfl
  have hclock : clockPart (endPhase slot s) = clockPart s :=
    (endPhase_moves slot s).clockPart (by simp [linkKinds])
  have hnow : (endPhase slot s).now = s.now := congrArg (·.1) hclock
  have hplace : InTurn .feed slot (endPhase slot s) := by
    refine ⟨(congrArg (fun c => c.2.2.1) hclock).trans hs,
      ⟨(congrArg (fun c => c.2.1) hclock).trans hd.1, ?_, ?_⟩, fun x hx => ?_, ?_⟩
    · rw [← hmoment]
      exact noEventDue_takeMoment _
    · rw [← hmoment]
      exact startDue_takeMoment _
    · rw [getLink_endPhase_of_ne (ne_of_position_ne (ne_of_lt hx))]
      exact hover x hx
    · rw [placeCome, hnow]
      exact hcome
  refine ⟨hexec, ?_⟩
  rw [hfollow, hmoment, exec_feed ⟨hs, hd, hover, hcome⟩, exec_feed hplace, openFeedPhases,
    openFeedPhases, endPhases_endPhase hfirst]

/-- Settles O35: the FEED is sent from the state in which the evaluations of its window have
ended. -/
theorem feedsGoOutOnceWithTheirBlock : Obligations.FeedsGoOutOnceWithTheirBlock := by
  unfold Obligations.FeedsGoOutOnceWithTheirBlock
  refine ⟨fun slot s m b h hw heval => ?_, fun slot s h hlaw => ?_,
    fun slot x s e h hlaw hring hx heval he hw hle hmin => ?_, fun slot s h hw heval => ?_,
    fun slot s h hup hothers =>
      ⟨_, (exec_feed_after_upstreamPhaseEnd h hup hothers).1,
        (exec_feed_after_upstreamPhaseEnd h hup hothers).2⟩⟩
  · intro feed s1
    have hfeed : feedOf m b s = feed := by
      rw [feedOf, frameTag_next]
      cases m <;> rfl
    rw [exec_feed h.1, openFeedPhases_of_open _ h.2 heval, sendReady_of_ready hw, sendFeed, hfeed]
    rfl
  · refine ⟨endEvaluations (position slot) s, ?_, feeds_endEvaluations h,
      fun x m e p hx hw hf hp => ?_, fun x hx => endEvaluations_others hx,
      fun k => getRing_endEvaluations_station k _ s, ?_⟩
    · rw [exec_feed h.1, exec_feed (feeds_endEvaluations h).1, openFeedPhases_of_feeds h,
        openFeedPhases_of_feeds (feeds_endEvaluations h), endEvaluations_endEvaluations hlaw]
    · have he : e.awaited = true := by
        have := (windowLaw_iff.1 hlaw).2.2 x (by rw [hw]; rfl)
        rw [hf] at this
        exact this
      intro bank read ended
      have hended : e.readAll s.store = ended := readAll_eq s.store he
      have hall := endedFrom_endEvaluations hx hw hf he hp
      rw [EndedFrom, hended] at hall
      exact hall
    · obtain ⟨l, q, g, hc⟩ := engineChange_endEvaluations (position slot) s
      rw [hc]
  · obtain ⟨source, more, hw'⟩ := List.exists_cons_of_ne_nil hw
    obtain ⟨hexec, hfeed⟩ := exec_feed_after_read h hlaw hring hx heval he hw' hle hmin
    exact ⟨_, hexec, hfeed⟩
  · rw [exec_feed h.1, openFeedPhases_of_open _ h.2 heval, sendReady_of_over _ hw]

end

end Sys2Proof.Machine
end

section
/-! PROOF. What the actions of a frame boundary reach (R61, R72, R131, R151), and what is due when
all that falls at a chassis time has been taken. -/

namespace Sys2Proof.Machine

open Sys2Proof

section

variable {s t r : State} {k j : Station} {u : Target} {g : Frame} {acts : List BoundaryAct}

/-! ### The blocks that a station's cycle or a grant reaches -/

/-- Entries of the banks, the engines of prediction and adaptation, the stations and the latched
flags: no other block, and no latched flag falls. -/
def ActFrame (s t : State) : Prop := ∃ a b p e st l, t = { s with
  store := { s.store with bankA := a, bankB := b }, prediction := p, adaptation := e, stations := st
  port := { s.port with latched := s.port.latched ||| l } }

theorem latched_or_zero (w : BitVec 12) : w ||| 0 = w := BitVec.or_zero

theorem ActFrame.of_engines (h : t = { s with
      store := { s.store with bankA := t.store.bankA, bankB := t.store.bankB }
      prediction := t.prediction, adaptation := t.adaptation, stations := t.stations }) :
    ActFrame s t := by
  refine ⟨t.store.bankA, t.store.bankB, t.prediction, t.adaptation, t.stations, 0, h.trans ?_⟩
  rw [latched_or_zero]

theorem ActFrame.refl (s : State) : ActFrame s s :=
  .of_engines rfl

theorem ActFrame.trans (h : ActFrame s t) (h' : ActFrame t r) : ActFrame s r := by
  obtain ⟨a, b, p, e, st, l, rfl⟩ := h
  obtain ⟨a', b', p', e', st', l', rfl⟩ := h'
  exact ⟨a', b', p', e', st', l ||| l', by rw [← BitVec.or_assoc]⟩

theorem actFrame_latch (f : Flag) (s : State) : ActFrame s (latch f s) :=
  ⟨s.store.bankA, s.store.bankB, s.prediction, s.adaptation, s.stations, f.bit, rfl⟩

theorem actFrame_foldl {α : Type} {f : State → α → State} (h : ∀ s a, ActFrame s (f s a))
    (l : List α) (s : State) : ActFrame s (l.foldl f s) := by
  induction l generalizing s with
  | nil => exact .refl s
  | cons a l ih => exact (h s a).trans (ih _)

theorem actFrame_modAdapt (u : Target) (f : AdaptRecord → AdaptRecord) (s : State) :
    ActFrame s (modAdapt u f s) :=
  .of_engines rfl

theorem actFrame_modStation (k : Station) (f : StationState → StationState) (s : State) :
    ActFrame s (modStation k f s) :=
  .of_engines rfl

theorem actFrame_setSteps (begun rest : List Step) (s : State) :
    ActFrame s (setSteps begun rest s) :=
  .of_engines rfl

theorem actFrame_changeLock (k : Station) (f : StationState → StationState) (s : State) :
    ActFrame s (changeLock k f s) := by
  unfold changeLock
  split
  · exact actFrame_modStation k f s
  · split
    · exact ((actFrame_modStation k f s).trans (actFrame_modStation ..)).trans (actFrame_latch ..)
    · exact ((actFrame_modStation k f s).trans (actFrame_modAdapt ..)).trans (actFrame_latch ..)

theorem actFrame_arrival (place : Nat) (u : Target) (e : Int) (r : EvalRecord) (parked : Bool)
    (s : State) : ActFrame s (arrival place u e r parked s) := by
  rw [arrival_frame]
  exact .of_engines rfl

theorem actFrame_setLastResidual (u : Target) (e : Int) (s : State) :
    ActFrame s (setLastResidual u e s) := actFrame_modAdapt ..

theorem actFrame_closeMean (k : Station) (s : State) : ActFrame s (closeMean k s) := by
  unfold closeMean stationMean
  dsimp only
  split
  · refine (actFrame_setLastResidual (stationTarget k) (getStation k s).older.mean s).trans ?_
    split
    · split
      · exact actFrame_arrival ..
      · exact .refl _
    · exact .refl _
  · exact .refl s

theorem actFrame_lockMisses (k : Station) (m : Nat) (s : State) : ActFrame s (lockMisses k m s) := by
  induction m generalizing s with
  | zero => exact .refl s
  | succ m ih => exact (actFrame_changeLock k _ s).trans (ih _)

theorem actFrame_closeMissing (k : Station) (a : Account) (s : State) :
    ActFrame s (closeMissing k a s) := by
  unfold closeMissing
  split
  · exact actFrame_lockMisses ..
  · exact .refl s

theorem actFrame_beginEvaluation (u : Target) (f : Frame) (s : State) :
    ActFrame s (beginEvaluation u f s) :=
  .of_engines rfl

theorem actFrame_stationCycle (g : Frame) (s : State) (k : Station) :
    ActFrame s (stationCycle g s k) :=
  (((actFrame_closeMean k s).trans (actFrame_closeMissing ..)).trans
    (actFrame_modStation ..)).trans (actFrame_beginEvaluation ..)

theorem actFrame_predictionRead (s : State) : ActFrame s (predictionRead s) := by
  unfold predictionRead
  split
  · exact .of_engines rfl
  · exact .refl s

theorem actFrame_applyUpdate (bank : BankName) (u : Target) (v : GainUpdate) (s : State) :
    ActFrame s (setStore (applyUpdate s.store bank u v) s) := by
  rcases applyUpdate_cases s.store bank u v with ⟨-, -, h⟩ | ⟨-, -, -, h⟩ | ⟨e, -, -, -, h⟩
  · rw [h]
    exact .refl s
  · rw [h]
    exact .refl s
  · rw [h]
    cases bank with
    | a => exact .of_engines rfl
    | b => exact .of_engines rfl

theorem actFrame_divergenceEvent (u : Target) (s : State) : ActFrame s (divergenceEvent u s) := by
  rcases Nat.eq_zero_or_pos (getAdapt u s).hold with h | h
  · rcases Nat.lt_or_ge (getAdapt u s).divergence 2 with hd | hd
    · rw [divergenceEvent_of_count h hd]
      exact (actFrame_latch _ s).trans (actFrame_modAdapt ..)
    · rw [divergenceEvent_of_third h hd]
      exact (((actFrame_latch _ s).trans (actFrame_modAdapt ..)).trans (actFrame_latch ..)).trans
        (actFrame_setSteps ..)
  · rw [divergenceEvent_of_hold h]
    exact (actFrame_latch _ s).trans (actFrame_modAdapt ..)

theorem actFrame_reportUpdate (st : Step) (rest : List Step) (more : List GainUpdate) (mark : Bool)
    (s : State) : ActFrame s (reportUpdate st rest more mark s) := by
  cases more with
  | cons v l => exact actFrame_setSteps ..
  | nil =>
    cases mark with
    | false => exact actFrame_setSteps ..
    | true => exact (actFrame_setSteps [] rest s).trans (actFrame_divergenceEvent ..)

theorem actFrame_updateEnded (s : State) : ActFrame s (updateEnded s) := .of_engines rfl

theorem actFrame_gainUpdate (s : State) : ActFrame s (gainUpdate s) := by
  unfold gainUpdate
  split
  · exact .refl s
  · split
    · exact .refl s
    · next st rest _ =>
      split
      · exact actFrame_setSteps ..
      · next v more _ =>
        exact ((actFrame_applyUpdate st.bank st.target v s).trans
          (actFrame_reportUpdate st rest more _ _)).trans (actFrame_updateEnded _)

theorem actFrame_boundaryAct (g : Frame) (s : State) (a : BoundaryAct) :
    ActFrame s (boundaryAct g s a) := by
  cases a with
  | cycle k => exact actFrame_stationCycle g s k
  | predictionRead => exact actFrame_predictionRead s
  | gainUpdate =>
    show ActFrame s (boundaryUpdate g s)
    unfold boundaryUpdate
    split
    · exact .refl s
    · exact actFrame_gainUpdate s

/-! ### The boundary (R61, R151, R152) -/

/-- The state before the actions of a boundary's schedule. -/
def loweredState (s : State) : State := lowerCounts { s with boundary := .taken }

/-- The state after those that the schedule places before the swap. -/
def scheduledState (acts : List BoundaryAct) (s : State) : State :=
  acts.foldl (boundaryAct (frameOf s.now)) (loweredState s)

/-- The state after all actions, before the links open the frame. -/
def cycledState (acts : List BoundaryAct) (s : State) : State :=
  (cyclesAfter acts).foldl (stationCycle (frameOf s.now)) (takeSwap (scheduledState acts s))

theorem takeFrameBoundary_eq (acts : List BoundaryAct) (s : State) :
    takeFrameBoundary acts s = openFrame (cycledState acts s) := rfl

theorem actFrame_scheduledState (acts : List BoundaryAct) (s : State) :
    ActFrame (loweredState s) (scheduledState acts s) :=
  actFrame_foldl (actFrame_boundaryAct _) acts _

theorem actFrame_cycledState (acts : List BoundaryAct) (s : State) :
    ActFrame (takeSwap (scheduledState acts s)) (cycledState acts s) :=
  actFrame_foldl (actFrame_stationCycle _) _ _

theorem takeSwap_of_none (h : s.store.swapPending = false) : takeSwap s = s := by
  rw [takeSwap, h, if_neg Bool.false_ne_true]

theorem takeSwap_of_pending (h : s.store.swapPending = true) : takeSwap s =
    latch .swapDone { s with
      store := { s.store with active := s.store.active.other, swapPending := false }
      adaptation := { s.adaptation with
        records := s.adaptation.records.map (AdaptRecord.swapped s.settings.global.settle) } } :=
  if_pos h

/-- The swap of a boundary (R61). -/
def swapStore (c : CouplingStore) : CouplingStore := { c with
  active := if c.swapPending then c.active.other else c.active
  swapPending := false }

theorem store_takeSwap (s : State) : (takeSwap s).store = swapStore s.store := by
  rcases h : s.store.swapPending
  · rw [takeSwap_of_none h, swapStore, h, if_neg Bool.false_ne_true, ← h]
  · rw [takeSwap_of_pending h, swapStore, h, if_pos rfl]
    rfl

/-- The blocks that no part of a boundary but its swap and its opening reaches. -/
theorem takeSwap_frame (s : State) : ∃ e l, takeSwap s = { s with
    store := swapStore s.store, adaptation := e
    port := { s.port with latched := s.port.latched ||| l } } := by
  refine ⟨(takeSwap s).adaptation, if s.store.swapPending then Flag.swapDone.bit else 0, ?_⟩
  rw [← store_takeSwap]
  rcases h : s.store.swapPending
  · rw [takeSwap_of_none h, if_neg Bool.false_ne_true, latched_or_zero]
  · rw [takeSwap_of_pending h, if_pos rfl]
    rfl

/-- What a boundary reaches, and the bank that it makes active. -/
theorem cycledState_frame (acts : List BoundaryAct) (s : State) : ∃ a b p e st l,
    cycledState acts s = { s with
      boundary := .taken
      store := { swapStore s.store with bankA := a, bankB := b }
      prediction := p, adaptation := e, stations := st
      suppression := s.suppression.map SuppressionRecord.lower
      port := { s.port with latched := s.port.latched ||| l } } := by
  obtain ⟨a, b, p, e, st, l, h1⟩ := actFrame_scheduledState acts s
  obtain ⟨e', l', h2⟩ := takeSwap_frame (scheduledState acts s)
  obtain ⟨a', b', p', e'', st', l'', h3⟩ := actFrame_cycledState acts s
  generalize scheduledState acts s = q at h1 h2 h3
  generalize takeSwap q = v at h2 h3
  subst h1 h2
  refine ⟨a', b', p', e'', st', l ||| l' ||| l'', ?_⟩
  rw [h3]
  simp only [BitVec.or_assoc]
  rfl

theorem exec_frameBoundary (hs : Ready s) (acts : List BoundaryAct) :
    exec (.frameBoundary acts) s = .next (frameBoundary acts s) :=
  afterEvents_of_ready _ hs

theorem frameBoundary_of_reached (h : s.boundary = .reached) (acts : List BoundaryAct) :
    frameBoundary acts s = takeFrameBoundary (scheduleOf acts) s := by
  rw [frameBoundary, h]

theorem frameBoundary_of_not_reached (h : s.boundary ≠ .reached) (acts : List BoundaryAct) :
    frameBoundary acts s = s := by
  unfold frameBoundary
  split
  · next hb => exact absurd hb h
  · rfl

/-- A boundary leaves chassis time, the records and the cache. -/
theorem frameBoundary_frame (acts : List BoundaryAct) (s : State) :
    (frameBoundary acts s).now = s.now ∧ (frameBoundary acts s).table = s.table ∧
      (frameBoundary acts s).cache = s.cache := by
  by_cases h : s.boundary = .reached
  · obtain ⟨a, b, p, e, st, l, hc⟩ := cycledState_frame (scheduleOf acts) s
    rw [frameBoundary_of_reached h, takeFrameBoundary_eq, hc]
    exact ⟨rfl, rfl, rfl⟩
  · rw [frameBoundary_of_not_reached h]
    exact ⟨rfl, rfl, rfl⟩

/-! ### What is due (R3, R38, R151) -/

theorem takeFalls_moment (s : State) : (takeFalls s).now = s.now ∧ (takeFalls s).table = s.table ∧
    (takeFalls s).cache = s.cache := by
  have h := takeFalls_frame s
  simp only [outsideFalls, Prod.mk.injEq] at h
  simp only [h, and_self]

/-- The taking of a boundary leaves chassis time, the records and the cache. -/
theorem takeBoundary_moment (s : State) : (takeBoundary s).now = s.now ∧
    (takeBoundary s).table = s.table ∧ (takeBoundary s).cache = s.cache := by
  obtain ⟨hn, ht, hc⟩ := frameBoundary_frame [] s
  unfold takeBoundary
  split
  · exact ⟨rfl, rfl, rfl⟩
  · obtain ⟨hn', ht', hc'⟩ := takeFalls_moment (frameBoundary [] s)
    exact ⟨hn'.trans hn, ht'.trans ht, hc'.trans hc⟩
  · exact takeFalls_moment s

theorem noEventDue_of_same (hn : t.now = s.now) (ht : t.table = s.table) (h : NoEventDue s) :
    NoEventDue t := fun r => by
  rw [getRecord, hn, ht]
  exact h r

theorem startDue_of_same (hc : t.cache = s.cache) : startDue t = startDue s := by
  unfold startDue fetchTarget
  rw [hc]

/-- Once all that falls at a chassis time has been taken, nothing is due. -/
theorem nothingDue_takeDue (s : State) : NothingDue (takeDue s) := by
  obtain ⟨hn, ht, hc⟩ := takeBoundary_moment (takeMoment s)
  exact ⟨takeBoundary_boundary _, noEventDue_of_same hn ht (noEventDue_takeMoment s),
    (startDue_of_same hc).trans (startDue_takeMoment s)⟩

theorem takeDue_takeDue (s : State) : takeDue (takeDue s) = takeDue s :=
  takeDue_of_nothingDue (nothingDue_takeDue s)

end

end Sys2Proof.Machine
end

section
/-! PROOF. The advance of chassis time (R151), and the order of commands among what is due and the
windows of a frame (R3, R38, R151, R152). -/

namespace Sys2Proof.Machine

open Sys2Proof

section

variable {s t : State} {slot x : Slot} {c : Instr} {i : Nat}

/-! ### The advance of chassis time (R151) -/

theorem advance_spec (s : State) : (advance s).now = s.now + 1 ∧ (advance s).links = s.links ∧
    (advance s).boundary = (if (s.now + 1).toNat % 8 = 0 then .reached else s.boundary) := by
  unfold advance
  split
  · exact ⟨rfl, rfl, rfl⟩
  · exact ⟨rfl, rfl, rfl⟩

theorem exec_chassisTimeAdvance (hs : Running s) :
    exec .chassisTimeAdvance s = .next (advance (periodEnded s)) := by
  show execChassisTimeAdvance s = _
  rw [execChassisTimeAdvance, running_of_running _ hs]
  rfl

theorem boundary_chassisTimeAdvance (s : State) : (advance (periodEnded s)).boundary =
    if (s.now + 1).toNat % 8 = 0 then .reached else .quiet := by
  rw [(advance_spec _).2.2, clockPart_now (clockPart_periodEnded s),
    clockPart_boundary (clockPart_periodEnded s)]

theorem boundary_chassisTimeAdvance_iff (s : State) :
    (advance (periodEnded s)).boundary = .reached ↔ (s.now + 1).toNat % 8 = 0 := by
  rw [boundary_chassisTimeAdvance]
  split <;> simp_all

/-- A target without an evaluation in flight has none to end. -/
theorem finishEvaluation_of_none {u : Target} (h : findEvaluation u s = none) :
    finishEvaluation u s = s := by
  rw [finishEvaluation, h]
  exact if_neg Bool.false_ne_true

theorem findEvaluation_of_empty (h : s.prediction.evaluations = []) (u : Target) :
    findEvaluation u s = none := by
  rw [findEvaluation, h, List.find?_nil]

theorem endEvaluations_of_empty (h : s.prediction.evaluations = []) (w : Nat) :
    endEvaluations w s = s := by
  refine foldl_slots_of_fixed endSlotEvaluation _ fun x _ => ?_
  rw [endSlotEvaluation, finishEvaluation_of_none (findEvaluation_of_empty h _), ite_self]

theorem finishStationEvaluations_of_empty (h : s.prediction.evaluations = []) :
    finishStationEvaluations s = s := by
  unfold finishStationEvaluations
  generalize List.finRange 16 = l
  induction l with
  | nil => rfl
  | cons k l ih =>
    rw [List.foldl_cons, finishEvaluation_of_none (findEvaluation_of_empty h _)]
    exact ih

/-! ### Places in a sample period (R152) -/

theorem lt_windowsEnded_iff {v : Nat} : v < windowsEnded i ↔ 600 + 400 * v ≤ 625 * (i + 1) := by
  simp only [windowsEnded, periodEnd, Place.bit]
  omega

/-- A window whose upstream phase ends within a sample period is over by its end, or the next. -/
theorem position_le_windowsEnded {v : Nat} (h : 360 + 400 * v ≤ 625 * (i + 1)) :
    v ≤ windowsEnded i := by
  by_contra hlt
  have := mt lt_windowsEnded_iff.2 (Nat.lt_irrefl (windowsEnded i))
  omega

theorem placeCome_iff {p : Place} : placeCome p slot s = true ↔
    p.bit (position slot) < 625 * (s.now.toNat % 8 + 1) :=
  decide_eq_true_iff

/-- Where every phase and window that ends within the sample period has ended, and no evaluation is
in flight, its windows are as they are. -/
theorem periodWindows_of_ended (he : s.prediction.evaluations = [])
    (hover : ∀ x : Slot, 600 + 400 * position x ≤ 625 * (i + 1) → (getLink x s).window = .over)
    (hup : ∀ x : Slot, 360 + 400 * position x ≤ 625 * (i + 1) →
      (getLink x s).window.isUpstream = false) : periodWindows i s = s := by
  have hends : ∀ w, 360 + 400 * w ≤ 625 * (i + 1) → endPhases w s = s := fun w hw =>
    endPhases_of_ended w fun x hx => hup x (hx ▸ hw)
  rw [periodWindows, runWindows_of_over _ fun x hx => hover x (lt_windowsEnded_iff.1 hx),
    periodPhases]
  split
  · next hfeed =>
    simp only [Place.bit, periodEnd] at hfeed
    rw [openFeedPhases, hends _ (by omega), endEvaluations_of_empty he]
  · split
    · next hend =>
      simp only [Place.bit, periodEnd] at hend
      exact hends _ (by omega)
    · rfl

/-- Settles O20: the clock of an advance, and an advance with nothing left to come before it. -/
theorem chassisTimeAdvancesByOne : Obligations.ChassisTimeAdvancesByOne := by
  unfold Obligations.ChassisTimeAdvancesByOne
  refine ⟨fun s hs => ⟨_, exec_chassisTimeAdvance hs, ?_, boundary_chassisTimeAdvance_iff s, ?_⟩,
    fun s hs hd he hover hup => ?_⟩
  · rw [(advance_spec _).1, clockPart_now (clockPart_periodEnded s)]
  · rw [boundary_chassisTimeAdvance]
    split <;> decide
  · rw [exec_chassisTimeAdvance hs, periodEnded, takeDue_of_nothingDue hd,
      periodWindows_of_ended (i := (periodOf s.now).val) he hover hup, finishStationEvaluations_of_empty he]
    rfl

/-! ### Events of the windows -/

/-- An event of a slot's window comes in its place, after what is due; and it leaves the windows
before its own over. -/
structure WindowEvent (c : Instr) (slot : Slot) (f before : State → State) : Prop where
  exec_eq : ∀ s, exec c s = running (fun s => inPlace (placeOf c) slot f (before s)) s
  before_eq : before = takeDue ∨ ∃ id, namedProfile c = some id ∧ before = takeDueFor id
  keeps : ∀ s, WindowLaw s → OverBelow (position slot) s →
    PlaceReached (placeOf c) (position slot) s → OverBelow (position slot) (f s)

theorem overBelow_of_others {f : State → State}
    (hf : ∀ s x, x ≠ slot → getLink x (f s) = getLink x s) (s : State)
    (h : OverBelow (position slot) s) : OverBelow (position slot) (f s) := fun x hx => by
  rw [hf s x (ne_of_position_ne (ne_of_lt hx))]
  exact h x hx

theorem overBelow_inWindow {f : State → State} (hf : Answers slot f) (s : State)
    (h : OverBelow (position slot) s) : OverBelow (position slot) (inWindow slot f s) := by
  unfold inWindow
  split
  · obtain ⟨s', a, hplain, he⟩ := hf s
    rw [he]
    intro x hx
    rw [setAnswer, getLink_modLink, if_neg (ne_of_position_ne (ne_of_lt hx))]
    exact (plain_window hplain x).over_iff.2 (h x hx)
  · exact h

theorem windowEvent_of_message {f : State → State} (hf : Answers slot f)
    (h : ∀ s, exec c s = message slot f s) (hp : placeOf c = .message) :
    WindowEvent c slot (inWindow slot f) takeDue where
  exec_eq s := by
    rw [h, hp]
    rfl
  before_eq := .inl rfl
  keeps s _ hbelow _ := overBelow_inWindow hf s hbelow

theorem answers_takeNotice (slot : Slot) (m : NoticeFields) : Answers slot (takeNotice slot m) :=
  answers_ite (answers_handToTable slot _ fun _ h => noticePresent_plain slot m h)
    (answers_discardMessage slot)

theorem windowEvent (h : c.windowOf = some slot) : ∃ f before, WindowEvent c slot f before := by
  cases c with
  | notice x m =>
    obtain rfl := Option.some.inj h
    exact ⟨_, takeDueFor m.profile, fun _ => rfl, .inr ⟨m.profile, rfl, rfl⟩,
      fun s _ hbelow _ => overBelow_inWindow (answers_takeNotice x m) s hbelow⟩
  | amend x m =>
    obtain rfl := Option.some.inj h
    exact ⟨_, _, windowEvent_of_message (answers_ite
      (answers_handToTable x _ fun s _ => amendPresent_plain x m s)
      (answers_discardMessage x)) (fun _ => rfl) rfl⟩
  | withdraw x tag =>
    obtain rfl := Option.some.inj h
    exact ⟨_, _, windowEvent_of_message
      (answers_handToTable x _ fun s _ => withdrawPresent_plain x tag s) (fun _ => rfl) rfl⟩
  | close x tag stamp =>
    obtain rfl := Option.some.inj h
    exact ⟨_, _, windowEvent_of_message
      (answers_handToTable x _ fun s _ => closePresent_plain x tag stamp s) (fun _ => rfl) rfl⟩
  | status x m =>
    obtain rfl := Option.some.inj h
    exact ⟨_, _, windowEvent_of_message (answers_takeStatus x m) (fun _ => rfl) rfl⟩
  | malformedMessage x =>
    obtain rfl := Option.some.inj h
    exact ⟨_, _, windowEvent_of_message (answers_discardMessage x) (fun _ => rfl) rfl⟩
  | upstreamPhaseEnd x =>
    obtain rfl := Option.some.inj h
    exact ⟨_, takeDue, fun _ => rfl, .inl rfl, fun s _ hbelow _ =>
      overBelow_of_others (fun s y hy => getLink_upstreamPhaseEnd_of_ne hy s) s hbelow⟩
  | feed x =>
    obtain rfl := Option.some.inj h
    refine ⟨_, takeDue, fun _ => rfl, .inl rfl, fun s hlaw hbelow hreach => ?_⟩
    refine overBelow_of_others (f := sendReady x) (fun s y hy => getLink_sendReady_of_ne hy s) _ ?_
    exact (openFeedPhases_inWindow (InWindow.start hlaw hbelow hreach)).1.below
  | _ => cases h

/-- What has come before an event of a window, where no fetch start yields to it. -/
theorem WindowEvent.before_of_not_yields {f before : State → State}
    (h : WindowEvent c slot f before) (hy : yieldsTo c (takeRecordEvents s) = false) :
    before s = takeDue s := by
  rcases h.before_eq with rfl | ⟨id, hid, rfl⟩
  · rfl
  · rw [yieldsTo_of_some hid] at hy
    rw [takeDueFor, takeMomentFor_of_not_yields hy, takeDue]

theorem WindowEvent.before_takeDue {f before : State → State} (h : WindowEvent c slot f before)
    (s : State) : before (takeDue s) = takeDue s := by
  obtain ⟨hq, he, hd⟩ := nothingDue_takeDue s
  rcases h.before_eq with rfl | ⟨id, -, rfl⟩
  · exact takeDue_takeDue s
  · rw [takeDueFor, takeMomentFor_of_none id he (.inl hd), takeBoundary_of_quiet hq]

theorem WindowEvent.before_keeps {f before : State → State} (h : WindowEvent c slot f before)
    (hlaw : WindowLaw s) : WindowLaw (before s) ∧ (before s).now = s.now := by
  rcases h.before_eq with rfl | ⟨id, -, rfl⟩
  · exact ⟨takeDue_keeps_windowLaw hlaw, takeDue_now s⟩
  · refine ⟨takeDueFor_keeps_windowLaw id hlaw, ?_⟩
    rw [takeDueFor, (takeBoundary_moment _).1]
    unfold takeMomentFor
    split
    · exact now_takeRecordEvents s
    · exact now_takeMoment s

theorem WindowEvent.exec_of_running {f before : State → State} (h : WindowEvent c slot f before)
    (hs : Running s) : exec c s = .next (inPlace (placeOf c) slot f (before s)) := by
  rw [h.exec_eq, running_of_running _ hs]

/-- An event of a window comes after all that is due. -/
theorem exec_window_takeDue (hs : Running s) (hc : c.windowOf = some slot)
    (hy : yieldsTo c (takeRecordEvents s) = false) : exec c s = exec c (takeDue s) := by
  obtain ⟨f, before, h⟩ := windowEvent hc
  rw [h.exec_of_running hs, h.exec_of_running ((takeDue_coldReset s).trans hs),
    h.before_of_not_yields hy, h.before_takeDue]

/-- After an event of a window in its place, the windows before it are over. -/
theorem earlierWindowsOver_exec (hs : Running s) (hlaw : WindowLaw s) (hc : c.windowOf = some slot)
    (ht : exec c s = .next t)
    (hp : (placeOf c).bit (position slot) < 625 * (s.now.toNat % 8 + 1)) :
    EarlierWindowsOver slot t := by
  obtain ⟨f, before, h⟩ := windowEvent hc
  obtain ⟨hlaw', hnow⟩ := h.before_keeps hlaw
  rw [h.exec_of_running hs] at ht
  obtain rfl := Host.Outcome.next.inj ht
  obtain ⟨s', he, hl, hbelow, hreach, -, -⟩ :=
    inPlace_spec f hlaw' (placeCome_iff.2 (by rw [hnow]; exact hp))
  rw [he]
  exact h.keeps s' hl hbelow hreach

/-- Before its place comes there is no event of a window. -/
theorem exec_window_early (hs : Running s) (hc : c.windowOf = some slot)
    (hy : yieldsTo c (takeRecordEvents s) = false)
    (hp : 625 * (s.now.toNat % 8 + 1) ≤ (placeOf c).bit (position slot)) :
    exec c s = .next (takeDue s) := by
  obtain ⟨f, before, h⟩ := windowEvent hc
  rw [h.exec_of_running hs, h.before_of_not_yields hy, inPlace, if_neg]
  rw [placeCome_iff, takeDue_now]
  exact not_lt_of_ge hp

theorem message_bit_le (p : Place) (w : Nat) : 280 + 400 * w ≤ p.bit w := by
  cases p <;> simp only [Place.bit] <;> omega

/-- After a FEED in its place, every row is past the turnaround of its window. -/
theorem pastTurnaround_exec_feed (hs : Running s) (hlaw : WindowLaw s)
    (ht : exec (.feed slot) s = .next t)
    (hp : 440 + 400 * position slot < 625 * (s.now.toNat % 8 + 1)) :
    PastTurnaround (position slot) t := by
  have hfeed : exec (.feed slot) s = .next (inPlace .feed slot
      (fun s => sendReady slot (openFeedPhases (position slot) s)) (takeDue s)) := by
    show execFeed slot s = _
    rw [execFeed, inTurn, running_of_running _ hs]
  rw [hfeed] at ht
  obtain rfl := Host.Outcome.next.inj ht
  obtain ⟨s', he, hl, hbelow, hreach, -, -⟩ :=
    inPlace_spec (fun s => sendReady slot (openFeedPhases (position slot) s))
      (takeDue_keeps_windowLaw hlaw)
      ((placeCome_iff (p := .feed)).2 (by rw [takeDue_now]; exact hp))
  obtain ⟨-, hopen⟩ := openFeedPhases_inWindow (InWindow.start hl hbelow hreach)
  rw [he]
  intro y hy
  by_cases hys : y = slot
  · subst hys
    rw [sendReady_over (hopen y rfl).1 (hopen y rfl).2]
    exact ⟨rfl, rfl⟩
  · rw [getLink_sendReady_of_ne hys]
    exact hopen y hy

/-! ### The end of a sample period (R72, R152) -/

theorem getLink_finishStationEvaluations (x : Slot) (s : State) :
    getLink x (finishStationEvaluations s) = getLink x s :=
  foldl_keeps (getLink x) (fun s k => finishEvaluation (stationTarget k) s)
    (fun s k => getLink_finishEvaluation_of_ne (stationTarget_ne_slotTarget k x).symm s) _ s

/-- What the end of a sample period leaves of a slot's window. -/
theorem window_chassisTimeAdvance (hlaw : WindowLaw s) (x : Slot) :
    let w := (getLink x (advance (periodEnded s))).window
    let n := 625 * (s.now.toNat % 8 + 1)
    (600 + 400 * position x ≤ n → w = .over) ∧
    (440 + 400 * position x ≤ n → w.isEvaluating = false) ∧
    (360 + 400 * position x ≤ n → w.isUpstream = false) := by
  intro w n
  obtain ⟨-, -, hbelow, hfeed, hend⟩ := periodWindows_spec (takeDue_keeps_windowLaw hlaw)
  rw [takeDue_now] at hbelow hfeed hend
  have hw : w = (getLink x (periodWindows (periodOf s.now).val (takeDue s))).window := by
    show (getLink x (advance (periodEnded s))).window = _
    rw [getLink, (advance_spec _).2.1]
    show (getLink x (periodEnded s)).window = _
    rw [periodEnded, getLink_finishStationEvaluations]
  have hover : position x < windowsEnded (periodOf s.now).val → w = .over := fun hx => by
    rw [hw]
    exact hbelow x hx
  have hperiod : periodEnd (periodOf s.now).val = 625 * (s.now.toNat % 8 + 1) := rfl
  have hle : 360 + 400 * position x ≤ 625 * (s.now.toNat % 8 + 1) →
      position x < windowsEnded (periodOf s.now).val ∨
        position x = windowsEnded (periodOf s.now).val := fun h =>
    lt_or_eq_of_le (position_le_windowsEnded (i := (periodOf s.now).val) h)
  refine ⟨fun h => hover (lt_windowsEnded_iff.2 h), fun h => ?_, fun h => ?_⟩
  · replace h : 440 + 400 * position x ≤ 625 * (s.now.toNat % 8 + 1) := h
    rcases hle (by omega) with hx | hx
    · rw [hover hx]
      rfl
    · rw [hw]
      refine (hfeed ?_ x hx).1
      rw [hperiod, ← hx]
      omega
  · replace h : 360 + 400 * position x ≤ 625 * (s.now.toNat % 8 + 1) := h
    rcases hle h with hx | hx
    · rw [hover hx]
      rfl
    · rw [hw]
      refine hend ?_ x hx
      rw [hperiod, ← hx]
      omega

/-- At a boundary all twelve windows are over. -/
theorem window_over_of_reached (hlaw : WindowLaw s)
    (h : (advance (periodEnded s)).boundary = .reached) (x : Slot) :
    (getLink x (advance (periodEnded s))).window = .over := by
  refine (window_chassisTimeAdvance hlaw x).1 ?_
  have hmod := (boundary_chassisTimeAdvance_iff s).1 h
  have hsucc : (s.now + 1).toNat = (s.now.toNat + 1) % 2 ^ 32 := by simp
  have hpos : position x < 12 := Nat.mod_lt _ (by decide)
  omega

/-- Settles O25: what comes before a command, before an event of a window, and before the end of a
sample period. -/
theorem commandsComeAfterWhatIsDueAndInWindowOrder :
    Obligations.CommandsComeAfterWhatIsDueAndInWindowOrder := by
  unfold Obligations.CommandsComeAfterWhatIsDueAndInWindowOrder
  intro s hs
  refine ⟨⟨noEventDue_takeMoment s, startDue_takeMoment s, now_takeMoment s, ?_⟩,
    ⟨nothingDue_takeDue s, takeDue_now s⟩, fun c h h1 => exec_eq_exec_takeMoment hs h h1, ?_,
    fun c slot hc hy => exec_window_takeDue hs hc hy,
    fun hlaw c slot t hc ht hp => earlierWindowsOver_exec hs hlaw hc ht hp,
    fun hlaw slot x t ht hp hx => pastTurnaround_exec_feed hs hlaw ht hp x hx,
    fun hlaw t ht => ?_,
    fun slot hp c hc hy => exec_window_early hs hc hy (le_trans hp (message_bit_le ..)),
    fun slot hp => exec_window_early (c := .upstreamPhaseEnd slot) hs rfl rfl hp,
    fun slot hp => exec_window_early (c := .feed slot) hs rfl rfl hp⟩
  · rw [exec_fetchStart ((takeRecordEvents_coldReset s).trans hs) (noEventDue_takeRecordEvents s),
      fetchStart_of_notDue (startDue_fetchStart _)]
    rfl
  · rw [exec_chassisTimeAdvance hs, exec_chassisTimeAdvance ((takeDue_coldReset s).trans hs),
      periodEnded, periodEnded, takeDue_takeDue, takeDue_now]
  · rw [exec_chassisTimeAdvance hs] at ht
    obtain rfl := Host.Outcome.next.inj ht
    exact ⟨fun x hx => (window_chassisTimeAdvance hlaw x).1 hx,
      fun x hx => (window_chassisTimeAdvance hlaw x).2.1 hx,
      fun x hx => (window_chassisTimeAdvance hlaw x).2.2 hx, window_over_of_reached hlaw⟩

end

end Sys2Proof.Machine
end

section
/-! PROOF. A station's cycle at a boundary: what it makes of its station and of its target's
adaptation record, and what it leaves (R97, R98, R128, R130, R131). -/

namespace Sys2Proof.Machine

open Sys2Proof

section

variable {s t : State} {k j : Station} {u x : Target} {g : Frame} {glob : GlobalSettings}
  {st : StationState} {m : Nat}

/-! ### Missing periods counted for lock (R128, R131) -/

/-- A station after one sample counted for lock as invalid, with the entry actions of a change. -/
def missed (glob : GlobalSettings) (st : StationState) : StationState :=
  if (st.countLock glob false).effective = st.effective then st.countLock glob false
  else (st.countLock glob false).unlock

theorem lock_cases (l : Lock) : l = .unlocked ∨ l = .locked := by cases l <;> decide

theorem countLock_of_unlocked (h : st.detected = .unlocked) :
    st.countLock glob false = { st with goodRun := 0 } := by
  simp only [StationState.countLock, h]

theorem countLock_of_bad (h : st.detected = .locked) (hn : st.badRun + 1 < glob.stationUnlock) :
    st.countLock glob false = { st with badRun := st.badRun + 1 } := by
  simp only [StationState.countLock, h]
  exact if_neg (not_le_of_gt hn)

theorem countLock_of_unlock (h : st.detected = .locked) (hn : glob.stationUnlock ≤ st.badRun + 1) :
    st.countLock glob false = { st with detected := .unlocked, goodRun := 0, badRun := 0 } := by
  simp only [StationState.countLock, h]
  exact if_pos hn

/-- An invalid sample leaves the detected state, or ends LOCKED. -/
theorem countLock_false_cases (glob : GlobalSettings) (st : StationState) :
    (∃ good bad, st.countLock glob false = { st with goodRun := good, badRun := bad }) ∨
      (st.detected = .locked ∧ glob.stationUnlock ≤ st.badRun + 1 ∧
        st.countLock glob false = { st with detected := .unlocked, goodRun := 0, badRun := 0 }) := by
  rcases lock_cases st.detected with h | h
  · exact .inl ⟨0, st.badRun, countLock_of_unlocked h⟩
  · rcases Nat.lt_or_ge (st.badRun + 1) glob.stationUnlock with hn | hn
    · exact .inl ⟨st.goodRun, st.badRun + 1, countLock_of_bad h hn⟩
    · exact .inr ⟨h, hn, countLock_of_unlock h hn⟩

/-- So it never makes a station's effective state LOCKED. -/
theorem effective_countLock_false
    (h : (st.countLock glob false).effective ≠ st.effective) :
    (st.countLock glob false).effective = .unlocked ∧ st.force = none ∧ st.detected = .locked ∧
      glob.stationUnlock ≤ st.badRun + 1 := by
  rcases countLock_false_cases glob st with ⟨good, bad, he⟩ | ⟨hd, hn, he⟩
  · rw [he] at h
    exact absurd rfl h
  · rw [he] at h ⊢
    cases hf : st.force with
    | some f => simp [StationState.effective, hf] at h
    | none => exact ⟨by simp [StationState.effective], rfl, hd, hn⟩

theorem missed_of_unlocked (h : st.detected = .unlocked) :
    missed glob st = { st with goodRun := 0 } := by
  rw [missed, countLock_of_unlocked h]
  exact if_pos rfl

theorem missed_of_bad (h : st.detected = .locked) (hn : st.badRun + 1 < glob.stationUnlock) :
    missed glob st = { st with badRun := st.badRun + 1 } := by
  rw [missed, countLock_of_bad h hn]
  exact if_pos rfl

/-- The entry into UNLOCKED, where no force stands against it (R130). -/
theorem missed_of_unlock (h : st.detected = .locked) (hn : glob.stationUnlock ≤ st.badRun + 1)
    (hf : st.force = none) : missed glob st =
      ({ st with detected := .unlocked, goodRun := 0, badRun := 0 } : StationState).unlock := by
  rw [missed, countLock_of_unlock h hn]
  exact if_neg (by simp [StationState.effective, hf, h])

theorem missed_of_forced {f : Lock} (h : st.detected = .locked)
    (hn : glob.stationUnlock ≤ st.badRun + 1) (hf : st.force = some f) :
    missed glob st = { st with detected := .unlocked, goodRun := 0, badRun := 0 } := by
  rw [missed, countLock_of_unlock h hn]
  exact if_pos (by simp [StationState.effective, hf])

/-- What invalid samples leave of a station. -/
structure MissKeeps (x y : StationState) : Prop where
  lastM : y.lastM = x.lastM
  force : y.force = x.force
  shockHold : y.shockHold = x.shockHold
  shockDue : y.shockDue = x.shockDue
  frame : y.newer.frame = x.newer.frame
  taken : y.newer.taken = x.newer.taken

theorem missKeeps_missed (glob : GlobalSettings) (st : StationState) :
    MissKeeps st (missed glob st) := by
  have hcount : MissKeeps st (st.countLock glob false) := by
    rcases countLock_false_cases glob st with ⟨good, bad, he⟩ | ⟨-, -, he⟩ <;> rw [he] <;>
      exact ⟨rfl, rfl, rfl, rfl, rfl, rfl⟩
  obtain ⟨hm, hf, hh, hd, hfr, ht⟩ := hcount
  unfold missed
  split
  · exact ⟨hm, hf, hh, hd, hfr, ht⟩
  · exact ⟨hm, hf, hh, hd, hfr, ht⟩

theorem missKeeps_iterate (glob : GlobalSettings) (m : Nat) :
    ∀ st, MissKeeps st ((missed glob)^[m] st) := by
  induction m with
  | zero => exact fun st => ⟨rfl, rfl, rfl, rfl, rfl, rfl⟩
  | succ m ih =>
    intro st
    obtain ⟨h1, h2, h3, h4, h5, h6⟩ := missKeeps_missed glob st
    obtain ⟨i1, i2, i3, i4, i5, i6⟩ := ih (missed glob st)
    exact ⟨i1.trans h1, i2.trans h2, i3.trans h3, i4.trans h4, i5.trans h5, i6.trans h6⟩

/-- Misses of an UNLOCKED station zero its good run. -/
theorem iterate_missed_of_unlocked (h : st.detected = .unlocked) (hm : 0 < m) :
    (missed glob)^[m] st = { st with goodRun := 0 } := by
  obtain ⟨m, rfl⟩ : ∃ n, m = n + 1 := ⟨m - 1, by omega⟩
  rw [Function.iterate_succ_apply, missed_of_unlocked h]
  refine Function.iterate_fixed ?_ m
  exact missed_of_unlocked (st := { st with goodRun := 0 }) h

/-- Misses short of the unlock count raise a LOCKED station's bad run. -/
theorem iterate_missed_of_bad (m : Nat) : ∀ {st : StationState}, st.detected = .locked →
    st.badRun + m < glob.stationUnlock →
    (missed glob)^[m] st = { st with badRun := st.badRun + m } := by
  induction m with
  | zero => exact fun _ _ => rfl
  | succ m ih =>
    intro st h hn
    rw [Function.iterate_succ_apply, missed_of_bad h (by omega),
      ih (st := { st with badRun := st.badRun + 1 }) h (by simp only; omega)]
    simp only [Nat.add_assoc, Nat.add_comm 1 m]

/-- At the unlock count the station is UNLOCKED, and its filter and residuals are zeroed where no
force stands against it (R130). -/
theorem iterate_missed_of_unlock (m : Nat) : ∀ {st : StationState}, st.detected = .locked → 0 < m →
    glob.stationUnlock ≤ st.badRun + m →
    ∃ y, (missed glob)^[m] st = y ∧ y.detected = .unlocked ∧ y.goodRun = 0 ∧ y.badRun = 0 ∧
      (st.force = none → y.y1 = 0 ∧ y.y2 = 0 ∧ y.newer = st.newer.clearResiduals) := by
  induction m with
  | zero => exact fun _ h => absurd h (Nat.lt_irrefl 0)
  | succ m ih =>
    intro st h _ hn
    rcases Nat.lt_or_ge (st.badRun + 1) glob.stationUnlock with hlt | hge
    · rw [Function.iterate_succ_apply, missed_of_bad h hlt]
      have hm : 0 < m := by
        by_contra h0
        omega
      obtain ⟨y, he, hd, hg, hb, hf⟩ :=
        ih (st := { st with badRun := st.badRun + 1 }) h hm (by simp only; omega)
      exact ⟨y, he, hd, hg, hb, hf⟩
    · rw [Function.iterate_succ_apply]
      have hstay : ∀ y : StationState, y.detected = .unlocked → y.goodRun = 0 →
          (missed glob)^[m] y = y := fun y hd hg => by
        refine Function.iterate_fixed ?_ m
        rw [missed_of_unlocked hd, ← hg]
      cases hf : st.force with
      | none =>
        rw [missed_of_unlock h hge hf, hstay _ rfl rfl]
        exact ⟨_, rfl, rfl, rfl, rfl, fun _ => ⟨rfl, rfl, rfl⟩⟩
      | some f =>
        rw [missed_of_forced h hge hf, hstay _ rfl rfl]
        exact ⟨_, rfl, rfl, rfl, rfl, nofun⟩

/-- An invalid sample of a station reaches the station, and LOCK-CHANGE where it unlocks. -/
theorem lockSample_false_cases (k : Station) (s : State) :
    ((missed s.settings.global (getStation k s)).effective = (getStation k s).effective ∧
      lockSample k false s = modStation k (missed s.settings.global) s) ∨
    lockSample k false s = latch .lockChange (modStation k (missed s.settings.global) s) := by
  have hself : getStation k (modStation k (StationState.countLock s.settings.global false) s) =
      (getStation k s).countLock s.settings.global false := by
    rw [getStation_modStation, if_pos rfl]
  unfold lockSample changeLock
  rw [hself]
  split
  · next he =>
    have hm : (getStation k s).countLock s.settings.global false =
        missed s.settings.global (getStation k s) := (if_pos he).symm
    exact .inl ⟨hm ▸ he, modStation_congr hm⟩
  · next he =>
    rw [(effective_countLock_false he).1]
    refine .inr (congrArg (latch .lockChange) ?_)
    have hcomp : modStation k StationState.unlock
        (modStation k (StationState.countLock s.settings.global false) s) =
          modStation k (fun st => (st.countLock s.settings.global false).unlock) s := by
      unfold modStation
      simp only [tmod_tmod]
    rw [hcomp]
    exact modStation_congr (if_neg he).symm

theorem getStation_lockSample_false (k j : Station) (s : State) :
    getStation j (lockSample k false s) =
      if j = k then missed s.settings.global (getStation j s) else getStation j s := by
  rcases lockSample_false_cases k s with ⟨-, h⟩ | h
  · rw [h, getStation_modStation]
  · rw [h, getStation_latch, getStation_modStation]

theorem adaptation_lockSample_false (k : Station) (s : State) :
    (lockSample k false s).adaptation = s.adaptation := by
  rcases lockSample_false_cases k s with ⟨-, h⟩ | h <;> rw [h] <;> rfl

theorem settings_lockSample (k : Station) (b : Bool) (s : State) :
    (lockSample k b s).settings = s.settings := by
  obtain ⟨a, b', p, e, st, l, h⟩ := actFrame_changeLock k (StationState.countLock s.settings.global b) s
  rw [lockSample, h]

theorem getStation_lockMisses (k j : Station) (m : Nat) : ∀ s : State,
    getStation j (lockMisses k m s) =
      if j = k then (missed s.settings.global)^[m] (getStation j s) else getStation j s := by
  induction m with
  | zero => exact fun s => (ite_self _).symm
  | succ m ih =>
    intro s
    rw [lockMisses, ih, settings_lockSample, getStation_lockSample_false]
    split
    · rfl
    · rfl

theorem adaptation_lockMisses (k : Station) (m : Nat) : ∀ s : State,
    (lockMisses k m s).adaptation = s.adaptation := by
  induction m with
  | zero => exact fun _ => rfl
  | succ m ih => exact fun s => (ih _).trans (adaptation_lockSample_false k s)

/-- No latched flag falls, and no block of a boundary's own but the engines changes. -/
theorem ActFrame.latched {f : Flag} (h : ActFrame s t)
    (hf : s.port.latched &&& f.bit = f.bit) : t.port.latched &&& f.bit = f.bit := by
  obtain ⟨a, b, p, e, st, l, rfl⟩ := h
  show (s.port.latched ||| l) &&& f.bit = f.bit
  rw [BitVec.and_comm] at hf ⊢
  ext i hi
  have := congrArg (·.getLsbD i) hf
  simp at this ⊢
  grind

theorem latched_latch (f : Flag) (s : State) : (latch f s).port.latched &&& f.bit = f.bit := by
  show (s.port.latched ||| f.bit) &&& f.bit = f.bit
  rw [BitVec.and_comm]
  ext i hi
  simp
  grind

/-- Misses that change a station's effective state latch LOCK-CHANGE (R130). -/
theorem latched_lockMisses (k : Station) (m : Nat) : ∀ s : State,
    (getStation k (lockMisses k m s)).effective ≠ (getStation k s).effective →
    (lockMisses k m s).port.latched &&& Flag.lockChange.bit = Flag.lockChange.bit := by
  induction m with
  | zero => exact fun s h => absurd rfl h
  | succ m ih =>
    intro s h
    rw [lockMisses] at h ⊢
    rcases lockSample_false_cases k s with ⟨he, hs⟩ | hs
    · refine ih _ ?_
      rwa [getStation_lockSample_false, if_pos rfl, he]
    · refine (actFrame_lockMisses k m _).latched ?_
      rw [hs]
      exact latched_latch ..

/-! ### The close of a frame (R97, R98, R131) -/

/-- How many missing periods the close of a station's frame counts for lock. -/
def missesOf (st : StationState) : Nat := if st.older.missingCounted then st.older.missing else 0

/-- A station after its cycle at the boundary that begins frame g. -/
def cycledStation (g : Frame) (glob : GlobalSettings) (st : StationState) : StationState :=
  ((missed glob)^[missesOf st] st).shiftAccounts g

theorem closeMissing_eq (k : Station) (a : Account) (s : State) :
    closeMissing k a s = lockMisses k (if a.missingCounted then a.missing else 0) s := by
  unfold closeMissing
  split
  · rfl
  · rfl

theorem stations_closeMean (k : Station) (s : State) : (closeMean k s).stations = s.stations := by
  unfold closeMean stationMean
  dsimp only
  split
  · split
    · split
      · rw [arrival_frame]
        rfl
      · rfl
    · rfl
  · rfl

/-- A mean of fewer than 4 residuals is not handed over. -/
theorem closeMean_of_few (h : ¬ 4 ≤ (getStation k s).older.count) : closeMean k s = s := if_neg h

/-- The frame-mean residual that a station hands over. -/
def handedMean (st : StationState) : Int := st.older.sum.tdiv st.older.count

theorem closeMean_of_mean (h : 4 ≤ (getStation k s).older.count) : closeMean k s =
    stationMean k (getStation k s).older.frame (handedMean (getStation k s)) s :=
  if_pos h

theorem getAdapt_setLastResidual (u : Target) (e : Int) (s : State) (x : Target) :
    getAdapt x (setLastResidual u e s) =
      if x = u then { getAdapt x s with lastResidual := e } else getAdapt x s :=
  tget_tmod ..

/-- An arrival leaves all of an adaptation record but the postscaler count. -/
theorem getAdapt_arrival (place : Nat) (u : Target) (e : Int) (r : EvalRecord) (parked : Bool)
    (s : State) (x : Target) : ∃ n, getAdapt x (arrival place u e r parked s) =
      { getAdapt x s with postscaler := n } := by
  unfold arrival countArrival
  split
  · exact ⟨_, rfl⟩
  · split
    · rw [getAdapt_queueStep, getAdapt_setPostscaler]
      split
      · exact ⟨0, rfl⟩
      · exact ⟨_, rfl⟩
    · rw [getAdapt_setPostscaler]
      split
      · exact ⟨_, rfl⟩
      · exact ⟨_, rfl⟩

/-- The hand-over reaches the target's own record alone: its last residual and postscaler count. -/
theorem getAdapt_closeMean (k : Station) (s : State) (x : Target) :
    (x ≠ stationTarget k → getAdapt x (closeMean k s) = getAdapt x s) ∧
    ∃ n, getAdapt (stationTarget k) (closeMean k s) = { getAdapt (stationTarget k) s with
      postscaler := n
      lastResidual := if 4 ≤ (getStation k s).older.count then handedMean (getStation k s)
        else (getAdapt (stationTarget k) s).lastResidual } := by
  by_cases h : 4 ≤ (getStation k s).older.count
  · rw [closeMean_of_mean h, if_pos h]
    have hother : x ≠ stationTarget k →
        getAdapt x (setLastResidual (stationTarget k) (handedMean (getStation k s)) s) =
          getAdapt x s := fun hx => by
      rw [getAdapt_setLastResidual, if_neg hx]
    have hself : getAdapt (stationTarget k)
        (setLastResidual (stationTarget k) (handedMean (getStation k s)) s) =
          { getAdapt (stationTarget k) s with lastResidual := handedMean (getStation k s) } := by
      rw [getAdapt_setLastResidual, if_pos rfl]
    unfold stationMean
    dsimp only
    split
    · split
      · next r _ =>
        refine ⟨fun hx => (getAdapt_arrival_of_ne _ _ _ _ hx).trans (hother hx), ?_⟩
        obtain ⟨n, hn⟩ := getAdapt_arrival 0 (stationTarget k) (handedMean (getStation k s)) r false
          (setLastResidual (stationTarget k) (handedMean (getStation k s)) s) (stationTarget k)
        exact ⟨n, by rw [hn, hself]⟩
      · exact ⟨hother, _, hself⟩
    · exact ⟨hother, _, hself⟩
  · rw [closeMean_of_few h, if_neg h]
    exact ⟨fun _ => rfl, _, rfl⟩

/-! ### A station's cycle (R72, R131) -/

theorem adaptation_stationCycle (g : Frame) (s : State) (k : Station) :
    (stationCycle g s k).adaptation = (closeMean k s).adaptation := by
  show (closeFrame k g s).adaptation = _
  show (closeMissing k _ (closeMean k s)).adaptation = _
  rw [closeMissing_eq, adaptation_lockMisses]

theorem settings_of_actFrame (h : ActFrame s t) : t.settings = s.settings := by
  obtain ⟨a, b, p, e, st, l, rfl⟩ := h
  rfl

/-- A station's cycle changes its own station alone. -/
theorem getStation_stationCycle (g : Frame) (s : State) (k j : Station) :
    getStation j (stationCycle g s k) =
      if j = k then cycledStation g s.settings.global (getStation j s) else getStation j s := by
  show getStation j (closeFrame k g s) = _
  have hmean : ∀ i, getStation i (closeMean k s) = getStation i s := fun i => by
    rw [getStation, stations_closeMean, getStation]
  rw [closeFrame, getStation_modStation, closeMissing_eq, getStation_lockMisses, hmean,
    settings_of_actFrame (actFrame_closeMean k s)]
  split
  · next h =>
    subst h
    rfl
  · rfl

/-- And its own target's adaptation record alone. -/
theorem getAdapt_stationCycle (g : Frame) (s : State) (k : Station) (x : Target) :
    getAdapt x (stationCycle g s k) = getAdapt x (closeMean k s) := by
  rw [getAdapt, adaptation_stationCycle, getAdapt]

theorem latched_stationCycle (g : Frame) (s : State) (k : Station)
    (h : ((missed s.settings.global)^[missesOf (getStation k s)] (getStation k s)).effective ≠
      (getStation k s).effective) :
    (stationCycle g s k).port.latched &&& Flag.lockChange.bit = Flag.lockChange.bit := by
  have hmean : getStation k (closeMean k s) = getStation k s := by
    rw [getStation, stations_closeMean, getStation]
  have hset := settings_of_actFrame (actFrame_closeMean k s)
  show (closeMissing k (getStation k s).older (closeMean k s)).port.latched &&& _ = _
  rw [closeMissing_eq]
  refine latched_lockMisses k _ _ ?_
  rw [getStation_lockMisses, if_pos rfl, hset, hmean]
  exact h

end

end Sys2Proof.Machine
end

section
/-! PROOF. The frame boundary with its schedule: what it makes of stations, counts, postscalers and
last residuals (R61, R98, R101 to R103, R112, R131, R133, R144, R151, R152). -/

namespace Sys2Proof.Machine

open Sys2Proof

section

variable {s t : State} {k j : Station} {u x : Target} {g : Frame} {glob : GlobalSettings}
  {st : StationState} {acts : List BoundaryAct}

/-! ### The actions of a schedule -/

theorem cyclesOf_map_cycle (l : List Station) : cyclesOf (l.map .cycle) = l := by
  induction l with
  | nil => rfl
  | cons k l ih => exact congrArg (k :: ·) ih

/-- The cycles after the swap are actions of a schedule too. -/
theorem cycledState_eq (acts : List BoundaryAct) (s : State) : cycledState acts s =
    ((cyclesAfter acts).map .cycle).foldl (boundaryAct (frameOf s.now))
      (takeSwap (scheduledState acts s)) := by
  rw [List.foldl_map]
  rfl

theorem gainUpdate_not_mem_cycles (l : List Station) : BoundaryAct.gainUpdate ∉ l.map .cycle := by
  simp

theorem predictionRead_not_mem_cycles (l : List Station) :
    BoundaryAct.predictionRead ∉ l.map .cycle := by
  simp

theorem mem_cyclesAfter : k ∈ cyclesAfter acts ↔ k ∉ cyclesOf acts := by
  simp [cyclesAfter]

theorem nodup_cyclesAfter (acts : List BoundaryAct) : (cyclesAfter acts).Nodup :=
  (List.nodup_finRange 16).filter _

theorem scheduleOf_of_nodup (h : (cyclesOf acts).Nodup) : scheduleOf acts = acts := if_pos h

theorem mem_of_mem_scheduleOf {a : BoundaryAct} (h : a ∈ scheduleOf acts) : a ∈ acts := by
  unfold scheduleOf at h
  split at h
  · exact h
  · exact absurd h List.not_mem_nil

theorem mem_cyclesOf : k ∈ cyclesOf acts ↔ BoundaryAct.cycle k ∈ acts := by
  induction acts with
  | nil => simp [cyclesOf]
  | cons a acts ih => cases a <;> simp [cyclesOf, ih]

theorem mem_cyclesOf_of_scheduleOf (h : k ∈ cyclesOf (scheduleOf acts)) : k ∈ cyclesOf acts :=
  mem_cyclesOf.2 (mem_of_mem_scheduleOf (mem_cyclesOf.1 h))

/-! ### Stations (R131) -/

theorem stations_predictionRead (s : State) : (predictionRead s).stations = s.stations := by
  unfold predictionRead
  split <;> rfl

theorem stations_divergenceEvent (u : Target) (s : State) :
    (divergenceEvent u s).stations = s.stations := by
  rw [(divergenceEvent_eq u s).1]

theorem stations_gainUpdate (s : State) : (gainUpdate s).stations = s.stations := by
  unfold gainUpdate
  split
  · rfl
  · split
    · rfl
    · split
      · rfl
      · show (reportUpdate _ _ _ _ _).stations = _
        rw [(reportUpdate_eq _ _ _ _ _).1]
        rfl

theorem boundaryUpdate_cases (g : Frame) (s : State) :
    boundaryUpdate g s = s ∨ boundaryUpdate g s = gainUpdate s := by
  unfold boundaryUpdate
  split
  · exact .inl rfl
  · exact .inr rfl

theorem stations_boundaryUpdate (g : Frame) (s : State) :
    (boundaryUpdate g s).stations = s.stations := by
  rcases boundaryUpdate_cases g s with h | h
  · rw [h]
  · rw [h, stations_gainUpdate]

theorem settings_acts (g : Frame) (acts : List BoundaryAct) (s : State) :
    (acts.foldl (boundaryAct g) s).settings = s.settings :=
  settings_of_actFrame (actFrame_foldl (actFrame_boundaryAct g) acts s)

/-- A station whose cycle a schedule does not name stands. -/
theorem getStation_acts_of_not_mem (h : k ∉ cyclesOf acts) : ∀ s : State,
    getStation k (acts.foldl (boundaryAct g) s) = getStation k s := by
  induction acts with
  | nil => exact fun _ => rfl
  | cons a acts ih =>
    intro s
    rw [List.foldl_cons]
    cases a with
    | cycle j =>
      obtain ⟨hj, hrest⟩ := List.ne_and_not_mem_of_not_mem_cons h
      rw [ih hrest, boundaryAct, getStation_stationCycle, if_neg hj]
    | predictionRead => rw [ih h, boundaryAct, getStation, stations_predictionRead, getStation]
    | gainUpdate => rw [ih h, boundaryAct, getStation, stations_boundaryUpdate, getStation]

/-- One whose cycle it names once goes through it. -/
theorem getStation_acts_of_mem (hn : (cyclesOf acts).Nodup) (h : k ∈ cyclesOf acts) : ∀ s : State,
    getStation k (acts.foldl (boundaryAct g) s) =
      cycledStation g s.settings.global (getStation k s) := by
  induction acts with
  | nil => exact absurd h List.not_mem_nil
  | cons a acts ih =>
    intro s
    rw [List.foldl_cons]
    cases a with
    | cycle j =>
      obtain ⟨hj, hrest⟩ := List.nodup_cons.1 hn
      by_cases hkj : k = j
      · subst hkj
        rw [getStation_acts_of_not_mem hj, boundaryAct, getStation_stationCycle, if_pos rfl]
      · rw [ih hrest ((List.mem_cons.1 h).resolve_left hkj), boundaryAct, getStation_stationCycle,
          if_neg hkj, settings_of_actFrame (actFrame_stationCycle g s j)]
    | predictionRead =>
      rw [ih hn h, boundaryAct, getStation, stations_predictionRead,
        settings_of_actFrame (actFrame_predictionRead s), getStation]
    | gainUpdate =>
      rw [ih hn h, settings_of_actFrame (actFrame_boundaryAct g s _), boundaryAct, getStation,
        stations_boundaryUpdate, getStation]

theorem stations_takeSwap (s : State) : (takeSwap s).stations = s.stations := by
  obtain ⟨e, l, h⟩ := takeSwap_frame s
  rw [h]

theorem settings_takeSwap (s : State) : (takeSwap s).settings = s.settings := by
  obtain ⟨e, l, h⟩ := takeSwap_frame s
  rw [h]

theorem getStation_loweredState (k : Station) (s : State) :
    getStation k (loweredState s) = (getStation k s).lower := tget_map ..

theorem settings_scheduledState (acts : List BoundaryAct) (s : State) :
    (scheduledState acts s).settings = s.settings :=
  settings_acts ..

/-- At a boundary every station goes through its cycle once. -/
theorem getStation_cycledState (hn : (cyclesOf acts).Nodup) (k : Station) (s : State) :
    getStation k (cycledState acts s) =
      cycledStation (frameOf s.now) s.settings.global (getStation k s).lower := by
  have hswap : getStation k (takeSwap (scheduledState acts s)) =
      getStation k (scheduledState acts s) := by
    rw [getStation, stations_takeSwap, getStation]
  rw [cycledState_eq]
  by_cases h : k ∈ cyclesOf acts
  · rw [getStation_acts_of_not_mem (by rw [cyclesOf_map_cycle, mem_cyclesAfter]; exact not_not.2 h),
      hswap, scheduledState, getStation_acts_of_mem hn h, getStation_loweredState]
    rfl
  · rw [getStation_acts_of_mem (by rw [cyclesOf_map_cycle]; exact nodup_cyclesAfter acts)
      (by rw [cyclesOf_map_cycle, mem_cyclesAfter]; exact h), hswap, settings_takeSwap,
      settings_scheduledState, scheduledState, getStation_acts_of_not_mem h,
      getStation_loweredState]

theorem shockHold_cycledStation (g : Frame) (glob : GlobalSettings) (st : StationState) :
    (cycledStation g glob st).shockHold = st.shockHold :=
  (missKeeps_iterate glob (missesOf st) st).shockHold

/-! ### Adaptation records -/

/-- What grants and cycles leave of an adaptation record. -/
structure RecordKeeps (x y : AdaptRecord) : Prop where
  settle : y.settle = x.settle
  settleDue : y.settleDue = x.settleDue
  holdDue : y.holdDue = x.holdDue

theorem RecordKeeps.trans {x y z : AdaptRecord} (h : RecordKeeps x y) (h' : RecordKeeps y z) :
    RecordKeeps x z :=
  ⟨h'.settle.trans h.settle, h'.settleDue.trans h.settleDue, h'.holdDue.trans h.holdDue⟩

/-- A divergence event leaves settle counts, marks and last residuals. -/
theorem getAdapt_divergenceEvent (u x : Target) (s : State) : ∃ d h p f,
    getAdapt x (divergenceEvent u s) = { getAdapt x s with
      divergence := d, hold := h, postscaler := p, frozen := f } := by
  by_cases hx : x = u
  · subst hx
    rcases Nat.eq_zero_or_pos (getAdapt x s).hold with h | h
    · rcases Nat.lt_or_ge (getAdapt x s).divergence 2 with hd | hd
      · rw [divergenceEvent_of_count h hd]
        exact ⟨_, _, _, _, tget_tmod_self ..⟩
      · rw [divergenceEvent_of_third h hd]
        exact ⟨_, _, _, _, tget_tmod_self ..⟩
    · rw [divergenceEvent_of_hold h]
      exact ⟨_, _, _, _, tget_tmod_self ..⟩
  · exact ⟨_, _, _, _, (divergenceEvent_eq u s).2.2 x hx⟩

theorem getAdapt_reportUpdate (st : Step) (rest : List Step) (more : List GainUpdate) (mark : Bool)
    (x : Target) (s : State) : ∃ d h p f,
    getAdapt x (reportUpdate st rest more mark s) = { getAdapt x s with
      divergence := d, hold := h, postscaler := p, frozen := f } := by
  cases more with
  | cons v l => exact ⟨_, _, _, _, rfl⟩
  | nil =>
    cases mark with
    | false => exact ⟨_, _, _, _, rfl⟩
    | true =>
      rw [reportUpdate_of_last_marked]
      exact getAdapt_divergenceEvent st.target x (setSteps [] rest s)

theorem getAdapt_gainUpdate (x : Target) (s : State) : ∃ d h p f,
    getAdapt x (gainUpdate s) = { getAdapt x s with
      divergence := d, hold := h, postscaler := p, frozen := f } := by
  unfold gainUpdate
  split
  · exact ⟨_, _, _, _, rfl⟩
  · split
    · exact ⟨_, _, _, _, rfl⟩
    · next st rest _ =>
      split
      · exact ⟨_, _, _, _, rfl⟩
      · next v more _ => exact getAdapt_reportUpdate st rest more _ x _

theorem getAdapt_boundaryUpdate (g : Frame) (x : Target) (s : State) : ∃ d h p f,
    getAdapt x (boundaryUpdate g s) = { getAdapt x s with
      divergence := d, hold := h, postscaler := p, frozen := f } := by
  rcases boundaryUpdate_cases g s with h | h
  · rw [h]
    exact ⟨_, _, _, _, rfl⟩
  · rw [h]
    exact getAdapt_gainUpdate x s

theorem adaptation_predictionRead_records (s : State) :
    (predictionRead s).adaptation.records = s.adaptation.records := by
  unfold predictionRead
  split <;> rfl

theorem getAdapt_predictionRead (x : Target) (s : State) :
    getAdapt x (predictionRead s) = getAdapt x s := by
  rw [getAdapt, adaptation_predictionRead_records, getAdapt]

theorem getAdapt_stationCycle_of_ne (h : x ≠ stationTarget k) (g : Frame) (s : State) :
    getAdapt x (stationCycle g s k) = getAdapt x s := by
  rw [getAdapt_stationCycle, (getAdapt_closeMean k s x).1 h]

/-- What an action of a boundary leaves of every adaptation record. -/
theorem recordKeeps_boundaryAct (g : Frame) (a : BoundaryAct) (x : Target) (s : State) :
    RecordKeeps (getAdapt x s) (getAdapt x (boundaryAct g s a)) := by
  cases a with
  | cycle k =>
    rw [boundaryAct]
    by_cases hx : x = stationTarget k
    · subst hx
      obtain ⟨n, hn⟩ := (getAdapt_closeMean k s (stationTarget k)).2
      rw [getAdapt_stationCycle, hn]
      exact ⟨rfl, rfl, rfl⟩
    · rw [getAdapt_stationCycle_of_ne hx]
      exact ⟨rfl, rfl, rfl⟩
  | predictionRead =>
    rw [boundaryAct, getAdapt_predictionRead]
    exact ⟨rfl, rfl, rfl⟩
  | gainUpdate =>
    obtain ⟨d, h, p, f, he⟩ := getAdapt_boundaryUpdate g x s
    rw [boundaryAct, he]
    exact ⟨rfl, rfl, rfl⟩

theorem recordKeeps_acts (g : Frame) (acts : List BoundaryAct) (x : Target) : ∀ s : State,
    RecordKeeps (getAdapt x s) (getAdapt x (acts.foldl (boundaryAct g) s)) := by
  induction acts with
  | nil => exact fun _ => ⟨rfl, rfl, rfl⟩
  | cons a acts ih => exact fun s => (recordKeeps_boundaryAct g a x s).trans (ih _)

/-- Without gain updates divergence holds stand, and so does the whole record of a target whose
cycle the schedule does not name. -/
theorem hold_acts (h : BoundaryAct.gainUpdate ∉ acts) (x : Target) : ∀ s : State,
    (getAdapt x (acts.foldl (boundaryAct g) s)).hold = (getAdapt x s).hold := by
  induction acts with
  | nil => exact fun _ => rfl
  | cons a acts ih =>
    obtain ⟨ha, hrest⟩ := List.ne_and_not_mem_of_not_mem_cons h
    intro s
    rw [List.foldl_cons, ih hrest]
    cases a with
    | cycle k =>
      rw [boundaryAct]
      by_cases hx : x = stationTarget k
      · subst hx
        obtain ⟨n, hn⟩ := (getAdapt_closeMean k s (stationTarget k)).2
        rw [getAdapt_stationCycle, hn]
      · rw [getAdapt_stationCycle_of_ne hx]
    | predictionRead => rw [boundaryAct, getAdapt_predictionRead]
    | gainUpdate => exact absurd rfl ha

theorem getAdapt_acts_of_not_mem (h : BoundaryAct.gainUpdate ∉ acts)
    (hx : ∀ k ∈ cyclesOf acts, x ≠ stationTarget k) : ∀ s : State,
    getAdapt x (acts.foldl (boundaryAct g) s) = getAdapt x s := by
  induction acts with
  | nil => exact fun _ => rfl
  | cons a acts ih =>
    obtain ⟨ha, hrest⟩ := List.ne_and_not_mem_of_not_mem_cons h
    intro s
    rw [List.foldl_cons]
    cases a with
    | cycle k =>
      rw [ih hrest fun j hj => hx j (List.mem_cons_of_mem _ hj), boundaryAct,
        getAdapt_stationCycle_of_ne (hx k List.mem_cons_self)]
    | predictionRead => rw [ih hrest hx, boundaryAct, getAdapt_predictionRead]
    | gainUpdate => exact absurd rfl ha

theorem stationTarget_inj (h : stationTarget k = stationTarget j) : k = j := by
  have := congrArg Fin.val h
  simp only [stationTarget] at this
  exact Fin.ext (by omega)

/-! ### Last residuals (R98) -/

/-- The last residual that a station's cycle leaves. -/
def closedResidual (st : StationState) (e : Int) : Int := if 4 ≤ st.older.count then handedMean st else e

theorem lastResidual_stationCycle (g : Frame) (s : State) (k j : Station) :
    (getAdapt (stationTarget j) (stationCycle g s k)).lastResidual =
      if j = k then closedResidual (getStation j s) (getAdapt (stationTarget j) s).lastResidual
      else (getAdapt (stationTarget j) s).lastResidual := by
  split
  · next h =>
    subst h
    obtain ⟨n, hn⟩ := (getAdapt_closeMean j s (stationTarget j)).2
    rw [getAdapt_stationCycle, hn]
    rfl
  · next h =>
    rw [getAdapt_stationCycle_of_ne fun he => h (stationTarget_inj he)]

theorem lastResidual_boundaryUpdate (g : Frame) (x : Target) (s : State) :
    (getAdapt x (boundaryUpdate g s)).lastResidual = (getAdapt x s).lastResidual := by
  obtain ⟨d, h, p, f, he⟩ := getAdapt_boundaryUpdate g x s
  rw [he]

theorem lastResidual_acts_of_not_mem (h : k ∉ cyclesOf acts) : ∀ s : State,
    (getAdapt (stationTarget k) (acts.foldl (boundaryAct g) s)).lastResidual =
      (getAdapt (stationTarget k) s).lastResidual := by
  induction acts with
  | nil => exact fun _ => rfl
  | cons a acts ih =>
    intro s
    rw [List.foldl_cons]
    cases a with
    | cycle j =>
      obtain ⟨hj, hrest⟩ := List.ne_and_not_mem_of_not_mem_cons h
      rw [ih hrest, boundaryAct, lastResidual_stationCycle, if_neg hj]
    | predictionRead => rw [ih h, boundaryAct, getAdapt_predictionRead]
    | gainUpdate => rw [ih h, boundaryAct, lastResidual_boundaryUpdate]

theorem lastResidual_acts_of_mem (hn : (cyclesOf acts).Nodup) (h : k ∈ cyclesOf acts) : ∀ s : State,
    (getAdapt (stationTarget k) (acts.foldl (boundaryAct g) s)).lastResidual =
      closedResidual (getStation k s) (getAdapt (stationTarget k) s).lastResidual := by
  induction acts with
  | nil => exact absurd h List.not_mem_nil
  | cons a acts ih =>
    intro s
    rw [List.foldl_cons]
    cases a with
    | cycle j =>
      obtain ⟨hj, hrest⟩ := List.nodup_cons.1 hn
      by_cases hkj : k = j
      · subst hkj
        rw [lastResidual_acts_of_not_mem hj, boundaryAct, lastResidual_stationCycle, if_pos rfl]
      · rw [ih hrest ((List.mem_cons.1 h).resolve_left hkj), boundaryAct, getStation_stationCycle,
          if_neg hkj, lastResidual_stationCycle, if_neg hkj]
    | predictionRead =>
      rw [ih hn h, boundaryAct, getStation, stations_predictionRead, getAdapt_predictionRead,
        getStation]
    | gainUpdate =>
      rw [ih hn h, boundaryAct, getStation, stations_boundaryUpdate, lastResidual_boundaryUpdate,
        getStation]

/-- A swap leaves the last residuals and the divergence holds. -/
theorem getAdapt_takeSwap (x : Target) (s : State) : getAdapt x (takeSwap s) =
    if s.store.swapPending then (getAdapt x s).swapped s.settings.global.settle
    else getAdapt x s := by
  rcases h : s.store.swapPending
  · rw [takeSwap_of_none h, if_neg Bool.false_ne_true]
  · rw [takeSwap_of_pending h, if_pos rfl]
    exact tget_map ..

theorem getAdapt_loweredState (x : Target) (s : State) :
    getAdapt x (loweredState s) = (getAdapt x s).lower := tget_map ..

/-- At a boundary every station hands its mean over, or leaves the last residual. -/
theorem lastResidual_cycledState (hn : (cyclesOf acts).Nodup) (k : Station) (s : State) :
    (getAdapt (stationTarget k) (cycledState acts s)).lastResidual =
      closedResidual (getStation k s) (getAdapt (stationTarget k) s).lastResidual := by
  have hswap : (getAdapt (stationTarget k) (takeSwap (scheduledState acts s))).lastResidual =
      (getAdapt (stationTarget k) (scheduledState acts s)).lastResidual := by
    rw [getAdapt_takeSwap]
    split <;> rfl
  have hstation : getStation k (takeSwap (scheduledState acts s)) =
      getStation k (scheduledState acts s) := by
    rw [getStation, stations_takeSwap, getStation]
  rw [cycledState_eq]
  by_cases h : k ∈ cyclesOf acts
  · rw [lastResidual_acts_of_not_mem
      (by rw [cyclesOf_map_cycle, mem_cyclesAfter]; exact not_not.2 h), hswap, scheduledState,
      lastResidual_acts_of_mem hn h, getStation_loweredState, getAdapt_loweredState]
    rfl
  · rw [lastResidual_acts_of_mem (by rw [cyclesOf_map_cycle]; exact nodup_cyclesAfter acts)
      (by rw [cyclesOf_map_cycle, mem_cyclesAfter]; exact h), hswap, hstation, scheduledState,
      lastResidual_acts_of_not_mem h, getStation_acts_of_not_mem h, getStation_loweredState,
      getAdapt_loweredState]
    rfl

end

end Sys2Proof.Machine
end

section
/-! PROOF. FRAME-BOUNDARY with its swap and its opening of the frame, and the stations' cycles with
their evaluations (R61, R70, R72, R98, R101, R128, R131, R151, R152). -/

namespace Sys2Proof.Machine

open Sys2Proof

section

variable {s t : State} {k j : Station} {u x : Target} {g f : Frame} {st : StationState}
  {acts : List BoundaryAct} {e : Evaluation}

/-! ### The boundary as a whole -/

theorem swapPending_of_actFrame (h : ActFrame s t) :
    t.store.swapPending = s.store.swapPending ∧ t.store.active = s.store.active := by
  obtain ⟨a, b, p, e, st, l, rfl⟩ := h
  exact ⟨rfl, rfl⟩

theorem swapPending_scheduledState (acts : List BoundaryAct) (s : State) :
    (scheduledState acts s).store.swapPending = s.store.swapPending :=
  (swapPending_of_actFrame (actFrame_scheduledState acts s)).1

/-- An adaptation record right after the swap. -/
theorem getAdapt_takeSwap_scheduledState (acts : List BoundaryAct) (x : Target) (s : State) :
    getAdapt x (takeSwap (scheduledState acts s)) =
      if s.store.swapPending then (getAdapt x (scheduledState acts s)).swapped s.settings.global.settle
      else getAdapt x (scheduledState acts s) := by
  rw [getAdapt_takeSwap, swapPending_scheduledState, settings_scheduledState]

theorem recordKeeps_cycledState (acts : List BoundaryAct) (x : Target) (s : State) :
    RecordKeeps (getAdapt x (takeSwap (scheduledState acts s))) (getAdapt x (cycledState acts s)) := by
  rw [cycledState_eq]
  exact recordKeeps_acts ..

theorem recordKeeps_scheduledState (acts : List BoundaryAct) (x : Target) (s : State) :
    RecordKeeps (getAdapt x s).lower (getAdapt x (scheduledState acts s)) := by
  rw [← getAdapt_loweredState]
  exact recordKeeps_acts ..

theorem settle_cycledState (acts : List BoundaryAct) (x : Target) (s : State) :
    (getAdapt x (cycledState acts s)).settle =
      if s.store.swapPending then s.settings.global.settle else (getAdapt x s).lower.settle := by
  rw [(recordKeeps_cycledState acts x s).settle, getAdapt_takeSwap_scheduledState]
  split
  · rfl
  · exact (recordKeeps_scheduledState acts x s).settle

theorem hold_cycledState (h : BoundaryAct.gainUpdate ∉ acts) (x : Target) (s : State) :
    (getAdapt x (cycledState acts s)).hold = (getAdapt x s).lower.hold := by
  have hswap : (getAdapt x (takeSwap (scheduledState acts s))).hold =
      (getAdapt x (scheduledState acts s)).hold := by
    rw [getAdapt_takeSwap_scheduledState]
    split <;> rfl
  rw [cycledState_eq, hold_acts (gainUpdate_not_mem_cycles _), hswap, scheduledState, hold_acts h,
    getAdapt_loweredState]

/-- The record of a target whose station's cycle does not come after the swap. -/
theorem getAdapt_cycledState_of_not_mem (hx : ∀ k ∈ cyclesAfter acts, x ≠ stationTarget k)
    (s : State) : getAdapt x (cycledState acts s) =
      getAdapt x (takeSwap (scheduledState acts s)) := by
  rw [cycledState_eq, getAdapt_acts_of_not_mem (gainUpdate_not_mem_cycles _)
    (by rw [cyclesOf_map_cycle]; exact hx)]

theorem postscaler_cycledState_of_swap (hs : s.store.swapPending = true)
    (hx : ∀ k ∈ cyclesAfter acts, x ≠ stationTarget k) :
    (getAdapt x (cycledState acts s)).postscaler = 0 := by
  rw [getAdapt_cycledState_of_not_mem hx, getAdapt_takeSwap_scheduledState, hs, if_pos rfl]
  rfl

theorem slotTarget_ne_stationTarget (slot : Slot) (k : Station) : slotTarget slot ≠ stationTarget k :=
  (stationTarget_ne_slotTarget k slot).symm

theorem postscaler_cycledState_slot (hs : s.store.swapPending = false)
    (h : BoundaryAct.gainUpdate ∉ acts) (slot : Slot) :
    (getAdapt (slotTarget slot) (cycledState acts s)).postscaler =
      (getAdapt (slotTarget slot) s).postscaler := by
  rw [getAdapt_cycledState_of_not_mem fun k _ => slotTarget_ne_stationTarget slot k,
    getAdapt_takeSwap_scheduledState, hs, if_neg Bool.false_ne_true, scheduledState,
    getAdapt_acts_of_not_mem h fun k _ => slotTarget_ne_stationTarget slot k, getAdapt_loweredState]
  rfl

/-- A count's fall at a boundary but for the one from 1. -/
theorem boundaryFall_eq (due : Bool) (n : Nat) :
    boundaryFall due n = if due = true ∧ 1 < n then n - 1 else n := by
  unfold boundaryFall
  simp only [Bool.and_eq_true, decide_eq_true_eq]

theorem latched_swapDone (hs : s.store.swapPending = true) (acts : List BoundaryAct) :
    (cycledState acts s).port.latched &&& Flag.swapDone.bit = Flag.swapDone.bit := by
  refine (actFrame_cycledState acts s).latched ?_
  rw [takeSwap_of_pending ((swapPending_scheduledState acts s).trans hs)]
  exact latched_latch ..

theorem getLink_openFrame (slot : Slot) (s : State) : getLink slot (openFrame s) =
    { getLink slot s with window := .upstream none } := tget_map ..

/-- Settles O21: the falls, the schedule, the swap, the other cycles, and the opening. -/
theorem frameBoundarySwapsAndOpensTheFrame : Obligations.FrameBoundarySwapsAndOpensTheFrame := by
  unfold Obligations.FrameBoundarySwapsAndOpensTheFrame
  refine ⟨fun acts s hs hb => ?_, fun acts s hs hb => ?_⟩
  · intro lowered
    have hlowered : ∀ due n, boundaryFall due n = lowered due n := boundaryFall_eq
    have hgain : BoundaryAct.gainUpdate ∉ acts → BoundaryAct.gainUpdate ∉ scheduleOf acts :=
      fun h hm => h (mem_of_mem_scheduleOf hm)
    obtain ⟨a, b, p, en, sts, l, hframe⟩ := cycledState_frame (scheduleOf acts) s
    refine ⟨openFrame (cycledState (scheduleOf acts) s), ?_, ?_, ?_, ?_,
      fun hp => ⟨latched_swapDone hp _, fun u => ?_, fun slot => ?_, fun k hn hk => ?_⟩,
      fun hp hg slot => postscaler_cycledState_slot hp (hgain hg) slot, fun hp u => ?_,
      fun hg u => ?_, fun k => ?_, fun slot => ?_, ?_, fun slot => ?_, ?_⟩
    · rw [exec_frameBoundary hs, frameBoundary_of_reached hb, takeFrameBoundary_eq]
    · rw [hframe]
      rfl
    · rw [hframe]
      rfl
    · rw [hframe]
      rfl
    · exact (settle_cycledState _ u s).trans (if_pos hp)
    · exact postscaler_cycledState_of_swap hp fun k _ => slotTarget_ne_stationTarget slot k
    · refine postscaler_cycledState_of_swap hp fun j hj he => ?_
      rw [scheduleOf_of_nodup hn, mem_cyclesAfter] at hj
      exact hj (stationTarget_inj he ▸ hk)
    · refine (settle_cycledState _ u s).trans ?_
      rw [hp, if_neg Bool.false_ne_true, ← hlowered]
      rfl
    · refine (hold_cycledState (hgain hg) u s).trans ?_
      rw [← hlowered]
      rfl
    · show (getStation k (cycledState (scheduleOf acts) s)).shockHold = _
      rw [getStation_cycledState (nodup_scheduleOf acts), shockHold_cycledStation, ← hlowered]
      rfl
    · rw [← hlowered, hframe]
      exact tget_map ..
    · rw [hframe]
      rfl
    · rw [getLink_openFrame, hframe]
      rfl
    · rw [hframe]
      exact ⟨rfl, rfl, rfl, rfl, rfl, rfl⟩
  · rw [exec_frameBoundary hs, frameBoundary_of_not_reached hb]

/-! ### The evaluations begun (R70, R72, R73) -/

/-- An evaluation of a station's target as its beginning and reads since leave it. -/
def BegunAndRead (k : Station) (f : Frame) (s : State) (e : Evaluation) : Prop :=
  e.target = stationTarget k ∧ e.frame = f ∧ SnapshotTaken (stationTarget k) s e.snap ∧
    ReadsOf s (e.done.map (·.source) ++ e.waiting)

theorem begunAndRead_of_begun (h : EvaluationBegun (stationTarget k) f s e) :
    BegunAndRead k f s e := by
  obtain ⟨ht, hf, hsnap, hdone, hreads, -⟩ := h
  refine ⟨ht, hf, hsnap, ?_⟩
  rw [hdone]
  exact hreads

/-- The snapshot of a station's target is of the records, the cache and the settings alone. -/
theorem snapshotTaken_of_actFrame (h : ActFrame s t) {sn : Snapshot}
    (hs : SnapshotTaken (stationTarget k) s sn) : SnapshotTaken (stationTarget k) t sn := by
  obtain ⟨hn, hr, hb, -, hp⟩ := hs
  obtain ⟨a, b, p, e, st, l, rfl⟩ := h
  refine ⟨hn, hr, hb, fun slot hslot => ?_, hp⟩
  have : slot.val = 96 + k.val := hslot
  omega

theorem readsOf_of_actFrame (h : ActFrame s t) {l : List Slot} (hs : ReadsOf s l) : ReadsOf t l := by
  obtain ⟨a, b, p, e, st, w, rfl⟩ := h
  exact hs

theorem BegunAndRead.of_actFrame (h : ActFrame s t) (hs : BegunAndRead k f s e) :
    BegunAndRead k f t e := by
  obtain ⟨ht, hf, hsnap, hreads⟩ := hs
  exact ⟨ht, hf, snapshotTaken_of_actFrame h hsnap, readsOf_of_actFrame h hreads⟩

theorem evaluationBegun_of_actFrame (h : ActFrame s t)
    (hs : EvaluationBegun (stationTarget k) f s e) : EvaluationBegun (stationTarget k) f t e := by
  obtain ⟨ht, hf, hsnap, hdone, hreads, hbank⟩ := hs
  refine ⟨ht, hf, snapshotTaken_of_actFrame h hsnap, hdone, readsOf_of_actFrame h hreads, ?_⟩
  rw [(swapPending_of_actFrame h).2]
  exact hbank

theorem BegunAndRead.granted {source : Slot} {more : List Slot} (c : CouplingStore)
    (h : BegunAndRead k f s e) (hw : e.waiting = source :: more) :
    BegunAndRead k f s (e.granted c source more) := by
  obtain ⟨ht, hf, hsnap, hreads⟩ := h
  refine ⟨ht, hf, hsnap, ?_⟩
  rw [hw] at hreads
  simpa [Evaluation.granted] using hreads

/-- The evaluation found for a target after a grant. -/
theorem find_grantRead (c : CouplingStore) (u : Target) {l : List Evaluation}
    (h : l.find? (fun x => decide (x.target = u)) = some e) :
    ∃ e', (grantRead c l).find? (fun x => decide (x.target = u)) = some e' ∧
      (e' = e ∨ ∃ source more, e.waiting = source :: more ∧ e' = e.granted c source more) := by
  induction l with
  | nil => cases h
  | cons a l ih =>
    unfold grantRead
    by_cases ha : a.target = u
    · rw [List.find?_cons_of_pos (by simpa using ha)] at h
      obtain rfl := Option.some.inj h
      split
      · next source more hw =>
        exact ⟨_, List.find?_cons_of_pos (decide_eq_true (by exact ha)),
          .inr ⟨source, more, hw, rfl⟩⟩
      · exact ⟨_, List.find?_cons_of_pos (by simpa using ha), .inl rfl⟩
    · rw [List.find?_cons_of_neg (by simpa using ha)] at h
      split
      · refine ⟨e, ?_, .inl rfl⟩
        rw [List.find?_cons_of_neg (by rw [decide_eq_true_eq]; exact ha)]
        exact h
      · rw [List.find?_cons_of_neg (by simpa using ha)]
        exact ih h

theorem find_predictionRead (h : findEvaluation u s = some e) :
    ∃ e', findEvaluation u (predictionRead s) = some e' ∧ (e' = e ∨ ∃ source more,
      e.waiting = source :: more ∧ e' = e.granted s.store source more) := by
  unfold predictionRead
  split
  · exact find_grantRead s.store u h
  · exact ⟨e, h, .inl rfl⟩

theorem evaluations_closeFrame (k : Station) (g : Frame) (s : State) :
    (closeFrame k g s).prediction = s.prediction := by
  have hmisses : ∀ (m : Nat) (s : State), (lockMisses k m s).prediction = s.prediction := fun m => by
    induction m with
    | zero => exact fun _ => rfl
    | succ m ih =>
      intro s
      rw [lockMisses, ih]
      rcases lockSample_false_cases k s with ⟨-, h⟩ | h <;> rw [h] <;> rfl
  have hmean : (closeMean k s).prediction = s.prediction := by
    unfold closeMean stationMean
    dsimp only
    split
    · split
      · split
        · rw [arrival_frame]
          rfl
        · rfl
      · rfl
    · rfl
  show (closeMissing k _ (closeMean k s)).prediction = _
  rw [closeMissing_eq, hmisses, hmean]

/-- A station's cycle begins its evaluation, from its close of the frame. -/
theorem findEvaluation_stationCycle (g : Frame) (s : State) (k : Station) (u : Target) :
    findEvaluation u (stationCycle g s k) =
      if stationTarget k = u then some (newEvaluation u (g + 1) (closeFrame k g s))
      else findEvaluation u s := by
  refine (find_beginEvaluation (stationTarget k) u (g + 1) (closeFrame k g s)).trans ?_
  split
  · next h => rw [h]
  · rw [findEvaluation, evaluations_closeFrame, findEvaluation]

theorem actFrame_beginEvaluation_closeFrame (g : Frame) (s : State) (k : Station) :
    ActFrame (closeFrame k g s) (stationCycle g s k) := actFrame_beginEvaluation ..

/-- After its cycle a station's evaluation has begun. -/
theorem begun_stationCycle (g : Frame) (s : State) (k : Station) :
    ∃ e, findEvaluation (stationTarget k) (stationCycle g s k) = some e ∧
      EvaluationBegun (stationTarget k) (g + 1) (stationCycle g s k) e := by
  refine ⟨newEvaluation (stationTarget k) (g + 1) (closeFrame k g s), ?_, ?_⟩
  · rw [findEvaluation_stationCycle, if_pos rfl]
  · exact evaluationBegun_of_actFrame (actFrame_beginEvaluation_closeFrame g s k)
      (evaluationBegun_newEvaluation ..)

theorem prediction_gainUpdate_evaluations (s : State) :
    (gainUpdate s).prediction.evaluations = s.prediction.evaluations := by
  unfold gainUpdate
  split
  · rfl
  · split
    · rfl
    · split
      · rfl
      · show (reportUpdate _ _ _ _ _).prediction.evaluations = _
        rw [(reportUpdate_eq _ _ _ _ _).1]
        rfl

theorem findEvaluation_boundaryUpdate (g : Frame) (u : Target) (s : State) :
    findEvaluation u (boundaryUpdate g s) = findEvaluation u s := by
  rcases boundaryUpdate_cases g s with h | h
  · rw [h]
  · rw [h, findEvaluation, prediction_gainUpdate_evaluations, findEvaluation]

/-- The actions of a schedule that does not name a station's cycle leave its evaluation, but for
reads of it. -/
theorem begunAndRead_acts_of_not_mem (h : k ∉ cyclesOf acts) : ∀ (s : State) (e : Evaluation),
    findEvaluation (stationTarget k) s = some e → BegunAndRead k f s e →
    ∃ e', findEvaluation (stationTarget k) (acts.foldl (boundaryAct g) s) = some e' ∧
      BegunAndRead k f (acts.foldl (boundaryAct g) s) e' := by
  induction acts with
  | nil => exact fun s e he hb => ⟨e, he, hb⟩
  | cons a acts ih =>
    intro s e he hb
    have hframe := actFrame_boundaryAct g s a
    rw [List.foldl_cons]
    cases a with
    | cycle j =>
      obtain ⟨hj, hrest⟩ := List.ne_and_not_mem_of_not_mem_cons h
      refine ih hrest _ e ?_ (hb.of_actFrame hframe)
      rw [boundaryAct, findEvaluation_stationCycle, if_neg fun ht => hj (stationTarget_inj ht).symm]
      exact he
    | predictionRead =>
      obtain ⟨e', he', hcase⟩ := find_predictionRead he
      refine ih h _ e' he' (BegunAndRead.of_actFrame hframe ?_)
      rcases hcase with rfl | ⟨source, more, hw, rfl⟩
      · exact hb
      · exact hb.granted _ hw
    | gainUpdate =>
      refine ih h _ e ?_ (hb.of_actFrame hframe)
      rw [boundaryAct, findEvaluation_boundaryUpdate]
      exact he

/-- Those of one that does leave it begun, with some of its reads made. -/
theorem begunAndRead_acts_of_mem (hn : (cyclesOf acts).Nodup) (h : k ∈ cyclesOf acts) :
    ∀ s : State, ∃ e, findEvaluation (stationTarget k) (acts.foldl (boundaryAct g) s) = some e ∧
      BegunAndRead k (g + 1) (acts.foldl (boundaryAct g) s) e := by
  induction acts with
  | nil => exact absurd h List.not_mem_nil
  | cons a acts ih =>
    intro s
    rw [List.foldl_cons]
    cases a with
    | cycle j =>
      obtain ⟨hj, hrest⟩ := List.nodup_cons.1 hn
      by_cases hkj : k = j
      · subst hkj
        obtain ⟨e, he, hb⟩ := begun_stationCycle g s k
        exact begunAndRead_acts_of_not_mem hj _ e he (begunAndRead_of_begun hb)
      · exact ih hrest ((List.mem_cons.1 h).resolve_left hkj) _
    | predictionRead => exact ih hn h _
    | gainUpdate => exact ih hn h _

/-- Where none of a schedule's grants is to the Prediction Engine, it is as at its beginning. -/
theorem begun_acts (hp : BoundaryAct.predictionRead ∉ acts) (hn : (cyclesOf acts).Nodup)
    (h : k ∈ cyclesOf acts) : ∀ s : State,
    ∃ e, findEvaluation (stationTarget k) (acts.foldl (boundaryAct g) s) = some e ∧
      EvaluationBegun (stationTarget k) (g + 1) (acts.foldl (boundaryAct g) s) e := by
  have hstay : ∀ (acts : List BoundaryAct), BoundaryAct.predictionRead ∉ acts → k ∉ cyclesOf acts →
      ∀ (s : State) (e : Evaluation), findEvaluation (stationTarget k) s = some e →
      EvaluationBegun (stationTarget k) (g + 1) s e →
      findEvaluation (stationTarget k) (acts.foldl (boundaryAct g) s) = some e ∧
        EvaluationBegun (stationTarget k) (g + 1) (acts.foldl (boundaryAct g) s) e := by
    intro acts hp hk
    induction acts with
    | nil => exact fun s e he hb => ⟨he, hb⟩
    | cons a acts ih =>
      obtain ⟨hpa, hprest⟩ := List.ne_and_not_mem_of_not_mem_cons hp
      intro s e he hb
      have hb' := evaluationBegun_of_actFrame (actFrame_boundaryAct g s a) hb
      rw [List.foldl_cons]
      cases a with
      | cycle j =>
        obtain ⟨hj, hrest⟩ := List.ne_and_not_mem_of_not_mem_cons hk
        refine ih hprest hrest _ e ?_ hb'
        rw [boundaryAct, findEvaluation_stationCycle,
          if_neg fun ht => hj (stationTarget_inj ht).symm]
        exact he
      | predictionRead => exact absurd rfl hpa
      | gainUpdate =>
        refine ih hprest hk _ e ?_ hb'
        rw [boundaryAct, findEvaluation_boundaryUpdate]
        exact he
  induction acts with
  | nil => exact absurd h List.not_mem_nil
  | cons a acts ih =>
    obtain ⟨hpa, hprest⟩ := List.ne_and_not_mem_of_not_mem_cons hp
    intro s
    rw [List.foldl_cons]
    cases a with
    | cycle j =>
      obtain ⟨hj, hrest⟩ := List.nodup_cons.1 hn
      by_cases hkj : k = j
      · subst hkj
        obtain ⟨e, he, hb⟩ := begun_stationCycle g s k
        exact ⟨e, hstay acts hprest hj _ e he hb⟩
      · exact ih hprest hrest ((List.mem_cons.1 h).resolve_left hkj) _
    | predictionRead => exact absurd rfl hpa
    | gainUpdate => exact ih hprest hn h _

/-- The swap leaves the evaluations, and no snapshot is of the store. -/
theorem begunAndRead_takeSwap (h : BegunAndRead k f s e) : BegunAndRead k f (takeSwap s) e := by
  obtain ⟨ht, hf, ⟨hn, hr, hb, -, hp⟩, hreads⟩ := h
  obtain ⟨en, l, hs⟩ := takeSwap_frame s
  rw [hs]
  refine ⟨ht, hf, ⟨hn, hr, hb, fun slot hslot => ?_, hp⟩, hreads⟩
  have : slot.val = 96 + k.val := hslot
  omega

theorem findEvaluation_takeSwap (u : Target) (s : State) :
    findEvaluation u (takeSwap s) = findEvaluation u s := by
  obtain ⟨en, l, hs⟩ := takeSwap_frame s
  rw [hs]
  rfl

/-- At a boundary each station's evaluation begins. -/
theorem begun_cycledState (hn : (cyclesOf acts).Nodup) (k : Station) (s : State) :
    ∃ e, findEvaluation (stationTarget k) (cycledState acts s) = some e ∧
      BegunAndRead k (frameOf s.now + 1) (cycledState acts s) e ∧
      (k ∉ cyclesOf acts →
        EvaluationBegun (stationTarget k) (frameOf s.now + 1) (cycledState acts s) e) := by
  rw [cycledState_eq]
  by_cases h : k ∈ cyclesOf acts
  · obtain ⟨e, he, hb⟩ := begunAndRead_acts_of_mem (g := frameOf s.now) hn h (loweredState s)
    obtain ⟨e', he', hb'⟩ := begunAndRead_acts_of_not_mem (g := frameOf s.now)
      (acts := (cyclesAfter acts).map .cycle)
      (by rw [cyclesOf_map_cycle, mem_cyclesAfter]; exact not_not.2 h)
      (takeSwap (scheduledState acts s)) e ((findEvaluation_takeSwap _ _).trans he)
      (begunAndRead_takeSwap hb)
    exact ⟨e', he', hb', fun hk => absurd h hk⟩
  · obtain ⟨e, he, hb⟩ := begun_acts (g := frameOf s.now) (acts := (cyclesAfter acts).map .cycle)
      (predictionRead_not_mem_cycles _) (by rw [cyclesOf_map_cycle]; exact nodup_cyclesAfter acts)
      (by rw [cyclesOf_map_cycle, mem_cyclesAfter]; exact h) (takeSwap (scheduledState acts s))
    exact ⟨e, he, begunAndRead_of_begun hb, fun _ => hb⟩

/-- The opening of the frame reaches the links alone. -/
theorem snapshotTaken_openFrame {sn : Snapshot} (h : SnapshotTaken (stationTarget k) s sn) :
    SnapshotTaken (stationTarget k) (openFrame s) sn := by
  obtain ⟨hn, hr, hb, -, hp⟩ := h
  refine ⟨hn, hr, hb, fun slot hslot => ?_, hp⟩
  have : slot.val = 96 + k.val := hslot
  omega

theorem evaluationBegun_openFrame (h : EvaluationBegun (stationTarget k) f s e) :
    EvaluationBegun (stationTarget k) f (openFrame s) e := by
  obtain ⟨ht, hf, hsnap, hrest⟩ := h
  exact ⟨ht, hf, snapshotTaken_openFrame hsnap, hrest⟩

/-! ### The accounts and the lock of a station (R128, R131) -/

theorem missesOf_eq_zero (h : st.older.missingCounted = false ∨ st.older.missing = 0) :
    missesOf st = 0 := by
  unfold missesOf
  rcases h with h | h
  · rw [h, if_neg Bool.false_ne_true]
  · rw [h, ite_self]

theorem missesOf_eq (h : st.older.missingCounted = true) : missesOf st = st.older.missing :=
  if_pos h

/-- Misses that unlock a station no force holds latch LOCK-CHANGE at its cycle, and it stays
latched. -/
theorem latched_acts (hn : (cyclesOf acts).Nodup) (h : k ∈ cyclesOf acts) : ∀ s : State,
    ((missed s.settings.global)^[missesOf (getStation k s)] (getStation k s)).effective ≠
      (getStation k s).effective →
    (acts.foldl (boundaryAct g) s).port.latched &&& Flag.lockChange.bit = Flag.lockChange.bit := by
  induction acts with
  | nil => exact absurd h List.not_mem_nil
  | cons a acts ih =>
    intro s hs
    have hset := settings_of_actFrame (actFrame_boundaryAct g s a)
    rw [List.foldl_cons]
    cases a with
    | cycle j =>
      obtain ⟨hj, hrest⟩ := List.nodup_cons.1 hn
      by_cases hkj : k = j
      · subst hkj
        exact (actFrame_foldl (actFrame_boundaryAct g) acts _).latched (latched_stationCycle g s k hs)
      · refine ih hrest ((List.mem_cons.1 h).resolve_left hkj) _ ?_
        rw [hset, boundaryAct, getStation_stationCycle, if_neg hkj]
        exact hs
    | predictionRead =>
      refine ih hn h _ ?_
      rw [hset, boundaryAct, getStation, stations_predictionRead]
      exact hs
    | gainUpdate =>
      refine ih hn h _ ?_
      rw [hset, boundaryAct, getStation, stations_boundaryUpdate]
      exact hs

theorem latched_cycledState (hn : (cyclesOf acts).Nodup) (k : Station) (s : State)
    (h : ((missed s.settings.global)^[missesOf (getStation k s)] (getStation k s).lower).effective ≠
      (getStation k s).lower.effective) :
    (cycledState acts s).port.latched &&& Flag.lockChange.bit = Flag.lockChange.bit := by
  by_cases hk : k ∈ cyclesOf acts
  · refine (actFrame_cycledState acts s).latched ?_
    have hsched : (scheduledState acts s).port.latched &&& Flag.lockChange.bit =
        Flag.lockChange.bit := by
      refine latched_acts hn hk (loweredState s) ?_
      rw [getStation_loweredState]
      exact h
    obtain ⟨en, l, hs⟩ := takeSwap_frame (scheduledState acts s)
    rw [hs]
    exact (ActFrame.latched (s := scheduledState acts s)
      (t := { scheduledState acts s with port := { (scheduledState acts s).port with
        latched := (scheduledState acts s).port.latched ||| l } }) ⟨_, _, _, _, _, l, rfl⟩ hsched)
  · rw [cycledState_eq]
    refine latched_acts (k := k) (by rw [cyclesOf_map_cycle]; exact nodup_cyclesAfter acts)
      (by rw [cyclesOf_map_cycle, mem_cyclesAfter]; exact hk) (takeSwap (scheduledState acts s)) ?_
    rw [settings_takeSwap, settings_scheduledState, getStation, stations_takeSwap, ← getStation,
      scheduledState, getStation_acts_of_not_mem hk, getStation_loweredState]
    exact h

/-- Settles O22: each station's one cycle, by the misses that its account counts. -/
theorem stationsCloseTheirFrameAtTheBoundary :
    Obligations.StationsCloseTheirFrameAtTheBoundary := by
  unfold Obligations.StationsCloseTheirFrameAtTheBoundary
  intro acts s k hs hb st unlock
  have hn := nodup_scheduleOf acts
  generalize hc : cycledState (scheduleOf acts) s = c
  have hstation : getStation k (openFrame c) =
      ((missed s.settings.global)^[missesOf st] st.lower).shiftAccounts (frameOf s.now) := by
    rw [← hc]
    exact getStation_cycledState hn k s
  obtain ⟨hm, hf, -, -, hframe, htaken⟩ := missKeeps_iterate s.settings.global (missesOf st) st.lower
  refine ⟨openFrame c, ?_, ?_, ?_, ?_, ?_, ?_, ?_, fun h => ?_, fun hmc hd hpos hlt => ?_,
    fun hmc hd hpos => ?_, fun hmc hd hpos hge => ?_, ?_⟩
  · rw [exec_frameBoundary hs, frameBoundary_of_reached hb, takeFrameBoundary_eq, hc]
  · rw [← hc]
    exact lastResidual_cycledState hn k s
  · rw [hstation]
    rfl
  · rw [hstation]
    exact hframe
  · rw [hstation]
    exact htaken
  · rw [hstation]
    exact hm
  · rw [hstation]
    exact hf
  · rw [hstation, missesOf_eq_zero h]
    exact ⟨rfl, rfl, rfl, rfl, rfl, rfl⟩
  · rw [hstation, missesOf_eq hmc, iterate_missed_of_bad (st := st.lower) st.older.missing hd hlt]
    exact ⟨hd, rfl, rfl, rfl, rfl⟩
  · rw [hstation, missesOf_eq hmc, iterate_missed_of_unlocked (st := st.lower) hd hpos]
    exact ⟨hd, rfl, rfl⟩
  · obtain ⟨y, hy, hyd, hyg, hyb, hyf⟩ :=
      iterate_missed_of_unlock (glob := s.settings.global) st.older.missing (st := st.lower) hd hpos
        hge
    rw [hstation, missesOf_eq hmc, hy]
    refine ⟨hyd, hyg, hyb, fun hforce => ?_⟩
    obtain ⟨h1, h2, h3⟩ := hyf hforce
    refine ⟨h1, h2, h3, ?_⟩
    show c.port.latched &&& _ = _
    rw [← hc]
    refine latched_cycledState hn k s ?_
    have hyforce : y.force = none := by
      rw [← hy, ← missesOf_eq hmc, hf]
      exact hforce
    have hlocked : st.lower.effective = .locked := by
      show st.force.getD st.detected = _
      rw [hforce, hd]
      rfl
    show ((missed s.settings.global)^[missesOf st] st.lower).effective ≠ st.lower.effective
    rw [missesOf_eq hmc, hy, hlocked, StationState.effective, hyforce, hyd]
    decide
  · obtain ⟨e, he, ⟨ht, hfr, hsnap, hreads⟩, hbegun⟩ := begun_cycledState hn k s
    rw [hc] at he hsnap hreads hbegun
    exact ⟨e, mem_of_findEvaluation he, he, ht, hfr, snapshotTaken_openFrame hsnap, hreads,
      fun hk => evaluationBegun_openFrame (hbegun fun hm => hk (mem_cyclesOf_of_scheduleOf hm))⟩

end

end Sys2Proof.Machine
end

section
/-! PROOF. The arrivals of the stations' means at the close of a frame, and the order of the steps of
one moment (R94, R97 to R105). -/

namespace Sys2Proof.Machine

open Sys2Proof

section

variable {s t : State} {k j : Station} {u x : Target} {g : Frame} {a b st : Step}
  {r : EvalRecord} {e : Int}

/-! ### The cycles of other stations (R131) -/

theorem rings_closeFrame (k : Station) (g : Frame) (s : State) (x : Target) :
    getRing x (stationCycle g s k) = getRing x s := by
  show tget (closeFrame k g s).prediction.rings x = _
  rw [evaluations_closeFrame]
  rfl

/-- What the cycles of other stations leave of what a station's own arrival is judged by. -/
structure ArrivalKeeps (k : Station) (s t : State) : Prop where
  station : getStation k t = getStation k s
  record : getAdapt (stationTarget k) t = getAdapt (stationTarget k) s
  ring : getRing (stationTarget k) t = getRing (stationTarget k) s
  settings : t.settings = s.settings
  active : t.store.active = s.store.active
  now : t.now = s.now

theorem ArrivalKeeps.refl (k : Station) (s : State) : ArrivalKeeps k s s :=
  ⟨rfl, rfl, rfl, rfl, rfl, rfl⟩

theorem ArrivalKeeps.trans {q : State} (h : ArrivalKeeps k s t) (h' : ArrivalKeeps k t q) :
    ArrivalKeeps k s q :=
  ⟨h'.station.trans h.station, h'.record.trans h.record, h'.ring.trans h.ring,
    h'.settings.trans h.settings, h'.active.trans h.active, h'.now.trans h.now⟩

theorem now_of_actFrame (h : ActFrame s t) : t.now = s.now := by
  obtain ⟨a, b, p, e, st, l, rfl⟩ := h
  rfl

theorem arrivalKeeps_stationCycle (h : k ≠ j) (g : Frame) (s : State) :
    ArrivalKeeps k s (stationCycle g s j) where
  station := by rw [getStation_stationCycle, if_neg h]
  record := getAdapt_stationCycle_of_ne (fun he => h (stationTarget_inj he)) g s
  ring := rings_closeFrame j g s (stationTarget k)
  settings := settings_of_actFrame (actFrame_stationCycle g s j)
  active := (swapPending_of_actFrame (actFrame_stationCycle g s j)).2
  now := now_of_actFrame (actFrame_stationCycle g s j)

theorem arrivalKeeps_stationCycles {l : List Station} (h : k ∉ l) (g : Frame) : ∀ s : State,
    ArrivalKeeps k s (l.foldl (stationCycle g) s) := by
  induction l with
  | nil => exact fun s => .refl k s
  | cons j l ih =>
    obtain ⟨hj, hl⟩ := List.ne_and_not_mem_of_not_mem_cons h
    exact fun s => (arrivalKeeps_stationCycle hj g s).trans (ih hl _)

/-- A station that hands no mean over takes no step. -/
theorem adaptation_stationCycle_of_few (h : ¬ 4 ≤ (getStation j s).older.count) (g : Frame) :
    (stationCycle g s j).adaptation = s.adaptation := by
  rw [adaptation_stationCycle, closeMean_of_few h]

theorem adaptation_stationCycles_of_few {l : List Station} (hl : l.Nodup) (g : Frame) :
    ∀ s : State, (∀ j ∈ l, ¬ 4 ≤ (getStation j s).older.count) →
      (l.foldl (stationCycle g) s).adaptation = s.adaptation := by
  induction l with
  | nil => exact fun _ _ => rfl
  | cons j l ih =>
    intro s h
    obtain ⟨hj, hl⟩ := List.nodup_cons.1 hl
    rw [List.foldl_cons, ih hl _ fun i hi => ?_,
      adaptation_stationCycle_of_few (h j List.mem_cons_self)]
    rw [getStation_stationCycle, if_neg fun he : i = j => hj (he ▸ hi)]
    exact h i (List.mem_cons_of_mem _ hi)

/-! ### The hand-over (R97, R98) -/

/-- The state in which a station's arrival is judged. -/
def handedState (k : Station) (s : State) : State :=
  setLastResidual (stationTarget k) (handedMean (getStation k s)) s

/-- The mean is no arrival where the station is not LOCKED, its shock hold runs, or the ring does
not hold the record of its frame. -/
theorem closeMean_of_no_arrival (hc : 4 ≤ (getStation k s).older.count)
    (h : (getStation k s).effective = .unlocked ∨ 0 < (getStation k s).shockHold ∨
      (getRing (stationTarget k) s).find? (fun x => decide (x.frame = (getStation k s).older.frame)) =
        none) : closeMean k s = handedState k s := by
  rw [closeMean_of_mean hc, stationMean, ← handedState]
  split
  · next hl =>
    have hstation : getStation k (handedState k s) = getStation k s := rfl
    rw [hstation] at hl
    rcases h with h | h | h
    · rw [h] at hl
      exact absurd hl.1 (by decide)
    · exact absurd hl.2 (Nat.ne_of_gt h)
    · have hm : matchFrame (getStation k s).older.frame (getRing (stationTarget k) (handedState k s)) =
          none := h
      rw [hm]
  · rfl

theorem closeMean_of_arrival (hc : 4 ≤ (getStation k s).older.count)
    (hl : (getStation k s).effective = .locked) (hh : (getStation k s).shockHold = 0)
    (hr : (getRing (stationTarget k) s).find?
      (fun x => decide (x.frame = (getStation k s).older.frame)) = some r) :
    closeMean k s =
      arrival 0 (stationTarget k) (handedMean (getStation k s)) r false (handedState k s) := by
  rw [closeMean_of_mean hc, stationMean, ← handedState]
  have hm : matchFrame (getStation k s).older.frame (getRing (stationTarget k) (handedState k s)) =
      some r := hr
  rw [hm]
  exact if_pos ⟨hl, hh⟩

theorem getAdapt_handedState (k : Station) (s : State) : getAdapt (stationTarget k) (handedState k s) =
    { getAdapt (stationTarget k) s with lastResidual := handedMean (getStation k s) } := by
  rw [handedState, getAdapt_setLastResidual, if_pos rfl]

/-! ### The plain boundary -/

/-- The state in which a station's cycle comes at a boundary without schedule and swap. -/
def beforeCycle (k : Station) (s : State) : State :=
  ((List.finRange 16).takeWhile fun j => decide (j ≠ k)).foldl (stationCycle (frameOf s.now))
    (loweredState s)

theorem not_mem_takeWhile_ne (k : Station) (l : List Station) :
    k ∉ l.takeWhile fun j => decide (j ≠ k) := fun h =>
  absurd rfl (of_decide_eq_true (List.mem_takeWhile_imp (p := fun j => decide (j ≠ k)) h))

theorem takeWhile_append_cons (k : Station) : ∃ suf, List.finRange 16 =
    ((List.finRange 16).takeWhile fun j => decide (j ≠ k)) ++ k :: suf ∧ k ∉ suf := by
  obtain ⟨pre, suf, hl, hpre⟩ := List.eq_append_cons_of_mem (List.mem_finRange k)
  have htake : (List.finRange 16).takeWhile (fun j => decide (j ≠ k)) = pre := by
    have hall : ∀ j ∈ pre, decide (j ≠ k) = true := fun j hj =>
      decide_eq_true (fun he : j = k => hpre (he ▸ hj))
    rw [hl, List.takeWhile_append_of_pos hall, List.takeWhile_cons_of_neg (by simp), List.append_nil]
  have hn := List.nodup_finRange 16
  rw [hl, List.nodup_append] at hn
  exact ⟨suf, by rw [htake]; exact hl, (List.nodup_cons.1 hn.2.1).1⟩

theorem cyclesAfter_nil : cyclesAfter [] = List.finRange 16 := by
  simp [cyclesAfter, cyclesOf]

theorem cycledState_nil (hs : s.store.swapPending = false) : cycledState [] s =
    (List.finRange 16).foldl (stationCycle (frameOf s.now)) (loweredState s) := by
  have hsched : scheduledState [] s = loweredState s := rfl
  rw [cycledState, hsched, takeSwap_of_none (by exact hs), cyclesAfter_nil]

theorem scheduleOf_nil : scheduleOf [] = [] := scheduleOf_of_nodup List.nodup_nil

/-- A station's own cycle alone reaches its target's record at a plain boundary. -/
theorem getAdapt_cycledState_nil (hs : s.store.swapPending = false) (k : Station) :
    getAdapt (stationTarget k) (cycledState [] s) =
      getAdapt (stationTarget k) (closeMean k (beforeCycle k s)) := by
  obtain ⟨suf, hl, hk⟩ := takeWhile_append_cons k
  rw [cycledState_nil hs, hl, List.foldl_append, List.foldl_cons,
    (arrivalKeeps_stationCycles hk _ _).record, getAdapt_stationCycle, ← beforeCycle]

@[simp] theorem adaptation_openFrame (s : State) : (openFrame s).adaptation = s.adaptation := rfl

theorem arrivalKeeps_beforeCycle (k : Station) (s : State) :
    ArrivalKeeps k (loweredState s) (beforeCycle k s) :=
  arrivalKeeps_stationCycles (not_mem_takeWhile_ne k _) _ _

/-- Where no other station hands a mean over, neither do the cycles before and after its own take a
step. -/
theorem adaptation_cycledState_nil (hs : s.store.swapPending = false)
    (honly : ∀ j : Station, j ≠ k → (getStation j s).older.count < 4) :
    (beforeCycle k s).adaptation = (loweredState s).adaptation ∧
      (cycledState [] s).adaptation = (closeMean k (beforeCycle k s)).adaptation := by
  obtain ⟨suf, hl, hk⟩ := takeWhile_append_cons k
  have hn := List.nodup_finRange 16
  rw [hl, List.nodup_append] at hn
  obtain ⟨hpre, hsuf, hdisj⟩ := hn
  have hfew : ∀ q : State, ∀ j : Station, j ≠ k → getStation j q = getStation j (loweredState s) →
      ¬ 4 ≤ (getStation j q).older.count := fun q j hj hq => by
    rw [hq, getStation_loweredState]
    exact not_le_of_gt (honly j hj)
  constructor
  · exact adaptation_stationCycles_of_few hpre _ _ fun j hj =>
      hfew _ j (fun he => not_mem_takeWhile_ne k _ (he ▸ hj)) rfl
  · rw [cycledState_nil hs, hl, List.foldl_append, List.foldl_cons,
      adaptation_stationCycles_of_few (List.nodup_cons.1 hsuf).2, adaptation_stationCycle,
      ← beforeCycle]
    intro j hj
    have hjk : j ≠ k := fun he => hk (he ▸ hj)
    refine hfew _ j hjk ?_
    rw [getStation_stationCycle, if_neg hjk]
    exact (arrivalKeeps_stationCycles
      (fun hm => hdisj j hm j (List.mem_cons_of_mem _ hj) rfl) _ (loweredState s)).station

/-! ### The order of the steps of one moment (R94) -/

theorem insertStep_comm (h : a.target ≠ b.target) (l : List Step) :
    insertStep a (insertStep b l) = insertStep b (insertStep a l) := by
  induction l with
  | nil =>
    rcases lt_or_gt_of_ne h with hlt | hlt
    · simp [insertStep, hlt, not_lt_of_gt hlt]
    · simp [insertStep, hlt, not_lt_of_gt hlt]
  | cons y l ih =>
    by_cases ha : a.target < y.target
    · by_cases hb : b.target < y.target
      · rcases lt_or_gt_of_ne h with hlt | hlt
        · simp [insertStep, ha, hb, hlt, not_lt_of_gt hlt]
        · simp [insertStep, ha, hb, hlt, not_lt_of_gt hlt]
      · have hba : ¬ b.target < a.target := fun hlt => hb (lt_trans hlt ha)
        simp [insertStep, ha, hb, hba]
    · by_cases hb : b.target < y.target
      · have hab : ¬ a.target < b.target := fun hlt => ha (lt_trans hlt hb)
        simp [insertStep, ha, hb, hab]
      · simp [insertStep, ha, hb, ih]

theorem moment_momentOf (st : Step) (e : AdaptationEngine) : (momentOf st e).moment = st.moment := by
  unfold momentOf
  split
  · split
    · assumption
    · rfl
  · rfl

theorem momentOf_congr (h : a.moment = b.moment) (e : AdaptationEngine) :
    momentOf a e = momentOf b e := by
  unfold momentOf
  rw [h]

/-- A step of the moment that stands open. -/
theorem momentOf_open {m : OpenMoment} {e : AdaptationEngine} (hm : e.openMoment = some m)
    (h : m.moment = st.moment) : momentOf st e = m := by
  rw [momentOf, hm]
  exact if_pos h

theorem queueStep_queueStep (hm : a.moment = b.moment) (ha : a.updates ≠ []) (hb : b.updates ≠ [])
    (s : State) : queueStep a (queueStep b s) =
      openMoment (((momentOf b s.adaptation).take b).take a) s := by
  rw [queueStep_of_some hb, queueStep_of_some ha,
    momentOf_open (m := (momentOf b s.adaptation).take b) rfl
      ((moment_momentOf b _).trans hm.symm)]
  rfl

theorem queueStep_comm (hm : a.moment = b.moment) (ht : a.target ≠ b.target) (s : State) :
    queueStep a (queueStep b s) = queueStep b (queueStep a s) := by
  by_cases ha : a.updates = []
  · rw [queueStep_of_none ha, queueStep_of_none ha]
  by_cases hb : b.updates = []
  · rw [queueStep_of_none hb, queueStep_of_none hb]
  rw [queueStep_queueStep hm ha hb, queueStep_queueStep hm.symm hb ha,
    momentOf_congr hm.symm]
  exact congrArg (openMoment · s) (congrArg (OpenMoment.mk _ _) (insertStep_comm ht _))

theorem insertStep_of_lt (h : a.target < b.target) : insertStep a [b] = [a, b] := if_pos h

theorem steps_queueStep_queueStep (hm : a.moment = b.moment) (ht : a.target < b.target)
    (ha : a.updates ≠ []) (hb : b.updates ≠ [])
    (hnew : ∀ m ∈ s.adaptation.openMoment, m.moment ≠ a.moment) :
    (queueStep a (queueStep b s)).adaptation.steps =
      joinQueue (joinQueue s.adaptation.steps a) b := by
  rw [queueStep_queueStep hm ha hb, momentOf_new (hm ▸ hnew)]
  show (insertStep a [b]).foldl joinQueue s.adaptation.steps = _
  rw [insertStep_of_lt ht]
  rfl

theorem takeWhile_append_of_all {α : Type} {p : α → Bool} {l : List α} {y : α}
    (hl : ∀ x ∈ l, p x = true) (hy : p y = false) : (l ++ [y]).takeWhile p = l ∧
      (l ++ [y]).dropWhile p = [y] := by
  constructor
  · rw [List.takeWhile_append_of_pos hl, List.takeWhile_cons_of_neg (by simp [hy]), List.append_nil]
  · rw [List.dropWhile_append_of_pos hl, List.dropWhile_cons_of_neg (by simp [hy])]

/-- A grant between two steps of a moment leaves their order (R94). -/
theorem steps_queueStep_gainUpdate_queueStep {rest : List Step} {u v : GainUpdate}
    {more : List GainUpdate} (hm : a.moment = b.moment) (ht : a.target < b.target)
    (ha : a.updates ≠ []) (hb : b.updates ≠ [])
    (hnew : ∀ m ∈ s.adaptation.openMoment, m.moment ≠ a.moment)
    (hw : predictionWaits s = false) (hst : s.adaptation.steps = st :: rest)
    (hrest : ∀ x ∈ rest, x.moment ≠ a.moment) (hu : st.updates = u :: v :: more)
    (hroom : queuedUpdates s.adaptation.steps + a.updates.length + b.updates.length ≤ 256) :
    ∃ mark, (queueStep a (gainUpdate (queueStep b s))).adaptation.steps =
      { st with updates := v :: more, clipped := mark } :: (rest ++ [a, b]) := by
  have hjoin : joinQueue s.adaptation.steps b = st :: (rest ++ [b]) := by
    rw [joinQueue_eq, if_pos (by omega), hst, List.cons_append]
  have hq : queueStep b s = openMoment ⟨b.moment, s.adaptation.steps, [b]⟩ s := by
    rw [queueStep_of_some hb, momentOf_new (hm ▸ hnew)]
    rfl
  have hqsteps : (queueStep b s).adaptation.steps = st :: (rest ++ [b]) := by
    rw [hq]
    exact hjoin
  have hqwaits : predictionWaits (queueStep b s) = false := by
    rw [hq]
    exact hw
  generalize hmark : (st.clipped || grantMark (queueStep b s) st u) = mark
  have hgain : (gainUpdate (queueStep b s)).adaptation.openMoment =
      some ⟨b.moment, { st with updates := v :: more, clipped := mark } :: rest, [b]⟩ := by
    rw [gainUpdate_eq hqwaits hqsteps hu, reportUpdate_of_more _ (List.cons_ne_nil _ _), hmark]
    show ((queueStep b s).adaptation.openMoment.map _) = _
    have hopen : (queueStep b s).adaptation.openMoment =
        some ⟨b.moment, s.adaptation.steps, [b]⟩ := by
      rw [hq]
      rfl
    obtain ⟨htake, hdrop⟩ := takeWhile_append_of_all (l := rest) (y := b)
      (p := fun x => decide (x.moment ≠ b.moment))
      (fun x hx => decide_eq_true (hm ▸ hrest x hx)) (decide_eq_false (not_not.2 rfl))
    rw [hopen, Option.map_some, OpenMoment.onto, htake, hdrop]
    rfl
  refine ⟨mark, ?_⟩
  rw [queueStep_of_some ha, momentOf_open hgain hm.symm]
  show (insertStep a [b]).foldl joinQueue _ = _
  rw [insertStep_of_lt ht, foldl_joinQueue_of_room]
  · rfl
  · show queuedUpdates (({ st with updates := v :: more, clipped := mark } :: rest) ++ [a, b]) ≤ 256
    rw [hst] at hroom
    simp only [queuedUpdates, List.map_cons, List.map_append, List.sum_cons, List.sum_append,
      List.map_nil, List.sum_nil, hu, List.length_cons] at hroom ⊢
    omega

/-! ### The arrival at a plain boundary (R97 to R105) -/

/-- R99's conditions of a station's arrival at a plain boundary, read from the state before it. -/
theorem arrivalIgnored_handed (k : Station) (r : EvalRecord) (s : State) :
    arrivalIgnored (stationTarget k) r false (handedState k (beforeCycle k s)) = true ↔
      (getAdapt (stationTarget k) s).frozen = true ∨
        (targetSettings (stationTarget k) s).enabled = false ∨
        0 < (getAdapt (stationTarget k) s).hold ∨ 0 < (getAdapt (stationTarget k) s).settle ∨
        r.suppressed = true ∨ r.parked = true ∨ r.bank ≠ s.store.active ∨ r.partialFlag = true ∨
        r.overflow = true := by
  obtain ⟨-, hrecord, -, hset, hactive, -⟩ := arrivalKeeps_beforeCycle k s
  have hsettings : targetSettings (stationTarget k) (handedState k (beforeCycle k s)) =
      targetSettings (stationTarget k) s := by
    show tget (beforeCycle k s).settings.targets _ = _
    rw [hset]
    rfl
  have hbank : (handedState k (beforeCycle k s)).store.active = s.store.active := hactive
  have hhold : 0 < (getAdapt (stationTarget k) s).lower.hold ↔
      0 < (getAdapt (stationTarget k) s).hold := boundaryFall_pos _ _
  have hsettle : 0 < (getAdapt (stationTarget k) s).lower.settle ↔
      0 < (getAdapt (stationTarget k) s).settle := boundaryFall_pos _ _
  rw [arrivalIgnored_iff, getAdapt_handedState, hrecord, getAdapt_loweredState, hsettings, hbank]
  dsimp only
  rw [hhold, hsettle]
  simp only [Bool.false_eq_true, or_false]
  rfl

/-- The record in which a station's arrival at a plain boundary finds its target. -/
theorem postscaler_handed (k : Station) (s : State) :
    (getAdapt (stationTarget k) (handedState k (beforeCycle k s))).postscaler =
      (getAdapt (stationTarget k) s).postscaler := by
  rw [getAdapt_handedState, (arrivalKeeps_beforeCycle k s).record, getAdapt_loweredState]
  rfl

/-- The steps in flight and the open moment are those before the boundary, where no other station
hands a mean over. -/
theorem steps_handed (hs : s.store.swapPending = false)
    (honly : ∀ j : Station, j ≠ k → (getStation j s).older.count < 4) :
    (handedState k (beforeCycle k s)).adaptation.steps = s.adaptation.steps ∧
      (handedState k (beforeCycle k s)).adaptation.openMoment = s.adaptation.openMoment := by
  have h := (adaptation_cycledState_nil hs honly).1
  constructor
  · show (beforeCycle k s).adaptation.steps = _
    rw [h]
    rfl
  · show (beforeCycle k s).adaptation.openMoment = _
    rw [h]
    rfl

/-- The updates of the step that a station's arrival takes at a plain boundary. -/
theorem stepFor_handed (k : Station) (e : Int) (r : EvalRecord) (s : State) :
    stepFor 0 (stationTarget k) e r (handedState k (beforeCycle k s)) =
      ⟨⟨s.now, 0⟩, stationTarget k, r.bank,
        stepUpdates (targetSettings (stationTarget k) s) s.settings.global.theta e r, false⟩ := by
  obtain ⟨-, -, -, hset, -, hnow⟩ := arrivalKeeps_beforeCycle k s
  have hsettings : (handedState k (beforeCycle k s)).settings = s.settings := hset
  have hnow' : (handedState k (beforeCycle k s)).now = s.now := hnow
  rw [stepFor, targetSettings, hsettings, hnow', targetSettings]

/-- Settles O23: the arrival in the station's own cycle, and steps of one moment in order. -/
theorem stationMeansArriveAtTheCloseInOrderOfTarget :
    Obligations.StationMeansArriveAtTheCloseInOrderOfTarget := by
  unfold Obligations.StationMeansArriveAtTheCloseInOrderOfTarget
  refine ⟨fun s k hs hb hp hc => ?_, fun a b s hm ht => queueStep_comm hm ht s,
    fun a b s hm ht ha hb hnew => ?_⟩
  · intro u a g e found
    obtain ⟨hstation, -, hring, -, -, -⟩ := arrivalKeeps_beforeCycle k s
    rw [getStation_loweredState] at hstation
    have hc' : 4 ≤ (getStation k (beforeCycle k s)).older.count := by
      rw [hstation]
      exact hc
    have hfound : (getRing u (beforeCycle k s)).find?
        (fun x => decide (x.frame = (getStation k (beforeCycle k s)).older.frame)) = found := by
      rw [hring, hstation]
      rfl
    have hmean : handedMean (getStation k (beforeCycle k s)) = e := by
      rw [hstation]
      rfl
    have hheld : 0 < (getStation k (beforeCycle k s)).shockHold ↔ 0 < (getStation k s).shockHold := by
      rw [hstation]
      exact boundaryFall_pos _ _
    have heff : (getStation k (beforeCycle k s)).effective = (getStation k s).effective := by
      rw [hstation]
      rfl
    have hrecord : getAdapt u (openFrame (cycledState [] s)) =
        getAdapt u (closeMean k (beforeCycle k s)) := by
      rw [getAdapt_openFrame, getAdapt_cycledState_nil hp k]
    refine ⟨openFrame (cycledState [] s), ?_, fun h => ?_, fun r hl hh hr => ?_⟩
    · rw [exec_frameBoundary hs, frameBoundary_of_reached hb, takeFrameBoundary_eq, scheduleOf_nil]
    · rw [hrecord, closeMean_of_no_arrival hc', postscaler_handed]
      rw [heff, hheld]
      exact h.imp_right (Or.imp_right fun h => hfound.trans h)
    · intro ignored updates only
      have hh' : (getStation k (beforeCycle k s)).shockHold = 0 :=
        Nat.eq_zero_of_not_pos fun h => absurd hh (Nat.ne_of_gt (hheld.1 h))
      have hclose := closeMean_of_arrival hc' (heff.trans hl) hh' (hfound.trans hr)
      rw [hmean] at hclose
      have hignored := arrivalIgnored_handed k r s
      have hsteps : only → (openFrame (cycledState [] s)).adaptation.steps =
          (closeMean k (beforeCycle k s)).adaptation.steps := fun ⟨ho, _⟩ => by
        rw [adaptation_openFrame, (adaptation_cycledState_nil hp ho).2]
      have hinterval : targetSettings (stationTarget k) (handedState k (beforeCycle k s)) = g := by
        show tget (beforeCycle k s).settings.targets _ = _
        rw [(arrivalKeeps_beforeCycle k s).settings]
        rfl
      refine ⟨fun hi => ?_, fun hi hn => ?_, fun hi hn => ?_⟩
      · rw [arrival_of_ignored (hignored.2 hi)] at hclose
        refine ⟨by rw [hrecord, hclose, postscaler_handed], fun ho => ?_⟩
        rw [hsteps ho, hclose, (steps_handed hp ho.1).1]
      · rw [arrival_of_counted (fun h => hi (hignored.1 h))
          (by rw [hinterval, postscaler_handed]; exact hn)] at hclose
        refine ⟨?_, fun ho => ?_⟩
        · rw [hrecord, hclose, getAdapt_setPostscaler, if_pos rfl, postscaler_handed]
        · rw [hsteps ho, hclose]
          exact (steps_handed hp ho.1).1
      · rw [arrival_of_step (fun h => hi (hignored.1 h))
          (by rw [hinterval, postscaler_handed]; exact hn)] at hclose
        refine ⟨?_, fun ho => ?_⟩
        · rw [hrecord, hclose, getAdapt_queueStep, getAdapt_setPostscaler, if_pos rfl]
        · have hupdates : stepUpdates (targetSettings (stationTarget k) s) s.settings.global.theta e r =
              updates := stepUpdates_eq ..
          obtain ⟨hst, hopen⟩ := steps_handed hp ho.1
          rw [hsteps ho, hclose, stepFor_handed, hupdates]
          by_cases hu : updates = []
          · rw [queueStep_of_none hu, if_pos (.inl hu)]
            exact hst
          · rw [steps_queueStep_new hu (by rw [setPostscaler]; exact hopen ▸ ho.2)]
            show (if queuedUpdates (handedState k (beforeCycle k s)).adaptation.steps +
              updates.length ≤ 256 then _ else _) = _
            rw [hst]
            by_cases hroom : queuedUpdates s.adaptation.steps + updates.length ≤ 256
            · rw [if_pos hroom, if_neg (by rw [not_or]; exact ⟨hu, not_lt_of_ge hroom⟩)]
              show (handedState k (beforeCycle k s)).adaptation.steps ++ _ = _
              rw [hst]
            · rw [if_neg hroom, if_pos (.inr (not_le.1 hroom))]
              exact hst
  · intro join
    have hjoin : ∀ l st, joinQueue l st = join l st := joinQueue_eq
    refine ⟨?_, fun st rest u v more hs hw hst hrest hu hroom => ?_⟩
    · rw [steps_queueStep_queueStep hm ht ha hb hnew, hjoin, hjoin]
    · obtain ⟨mark, h⟩ := steps_queueStep_gainUpdate_queueStep hm ht ha hb hnew
        (predictionWaits_eq_false_iff.2 (.inr hw)) hst hrest hu hroom
      have hready : Ready (queueStep b s) := by
        rw [queueStep_frame]
        exact hs
      exact ⟨_, mark, exec_gainUpdate hready, h⟩

end

end Sys2Proof.Machine
end

section
/-! PROOF. What a sweep makes of each station (R121 to R130), of the suppression records (R142,
R143), and what it leaves. -/

namespace Sys2Proof.Machine

open Sys2Proof

section

variable {s t r : State} {k j : Station} {slot x : Slot} {f : Frame} {T : Time}
  {glob : GlobalSettings} {g : StationSettings} {st y : StationState} {p : Int × Int} {a : Account}

/-! ### The blocks that a sweep reaches -/

/-- The stations, the suppression records, the adaptation records and the latched flags: a sweep
reaches no other block, and no latched flag falls. -/
def SweepFrame (s t : State) : Prop := ∃ st a sp l, t = { s with
  stations := st, adaptation := { s.adaptation with records := a }, suppression := sp
  port := { s.port with latched := s.port.latched ||| l } }

theorem SweepFrame.of_blocks (h : t = { s with
      stations := t.stations, suppression := t.suppression
      adaptation := { s.adaptation with records := t.adaptation.records } }) : SweepFrame s t := by
  refine ⟨t.stations, t.adaptation.records, t.suppression, 0, h.trans ?_⟩
  rw [latched_or_zero]

theorem SweepFrame.refl (s : State) : SweepFrame s s :=
  .of_blocks rfl

theorem SweepFrame.trans (h : SweepFrame s t) (h' : SweepFrame t r) : SweepFrame s r := by
  obtain ⟨st, a, sp, l, rfl⟩ := h
  obtain ⟨st', a', sp', l', rfl⟩ := h'
  exact ⟨st', a', sp', l ||| l', by rw [← BitVec.or_assoc]⟩

theorem sweepFrame_latch (f : Flag) (s : State) : SweepFrame s (latch f s) :=
  ⟨s.stations, s.adaptation.records, s.suppression, f.bit, rfl⟩

theorem sweepFrame_modStation (k : Station) (f : StationState → StationState) (s : State) :
    SweepFrame s (modStation k f s) :=
  .of_blocks rfl

theorem sweepFrame_foldl {α : Type} {f : State → α → State} (h : ∀ s a, SweepFrame s (f s a))
    (l : List α) (s : State) : SweepFrame s (l.foldl f s) := by
  induction l generalizing s with
  | nil => exact .refl s
  | cons a l ih => exact (h s a).trans (ih _)

theorem sweepFrame_changeLock (k : Station) (f : StationState → StationState) (s : State) :
    SweepFrame s (changeLock k f s) := by
  have hmod : SweepFrame s (modStation k f s) := sweepFrame_modStation ..
  unfold changeLock
  split
  · exact hmod
  · split
    · exact (hmod.trans (sweepFrame_modStation ..)).trans (sweepFrame_latch ..)
    · exact (hmod.trans (.of_blocks rfl)).trans (sweepFrame_latch ..)

theorem sweepFrame_trigger (slot : Slot) (s : State) : SweepFrame s (trigger slot s) :=
  SweepFrame.trans (.of_blocks rfl) (sweepFrame_latch .shock _)

theorem sweepFrame_takeValues (k : Station) (p : Int × Int) (s : State) :
    SweepFrame s (takeValues k p s) := by
  unfold takeValues
  dsimp only
  split
  · exact (sweepFrame_modStation ..).trans ((sweepFrame_modStation ..).trans
      (sweepFrame_foldl (fun s slot => sweepFrame_trigger slot s) _ _))
  · exact sweepFrame_modStation ..

theorem sweepFrame_takeMeasured (k : Station) (T : Time) (p : Int × Int) (s : State) :
    SweepFrame s (takeMeasured k T p s) := by
  unfold takeMeasured
  split
  · unfold takeResidual
    dsimp only
    split
    · exact (sweepFrame_modStation ..).trans (sweepFrame_modStation ..)
    · exact sweepFrame_modStation ..
  · exact .refl s

theorem sweepFrame_takeSample (k : Station) (T : Time) (s : State) :
    SweepFrame s (takeSample k T s) := by
  have hvalues := fun p => sweepFrame_takeValues k p s
  unfold takeSample
  split
  · exact sweepFrame_changeLock ..
  · split
    · exact ((hvalues _).trans (sweepFrame_takeMeasured ..)).trans (sweepFrame_changeLock ..)
    · exact (hvalues _).trans (sweepFrame_changeLock ..)

theorem sweepFrame_offerSweep (T : Time) (s : State) (k : Station) :
    SweepFrame s (offerSweep T s k) := by
  unfold offerSweep
  split
  · exact .refl s
  · split
    · exact .refl s
    · exact (sweepFrame_modStation ..).trans (sweepFrame_takeSample ..)

theorem sweepFrame_offers (T : Time) (l : List Station) (s : State) :
    SweepFrame s (l.foldl (offerSweep T) s) :=
  sweepFrame_foldl (sweepFrame_offerSweep T) l s

theorem SweepFrame.settings (h : SweepFrame s t) : t.settings = s.settings := by
  obtain ⟨_, _, _, _, rfl⟩ := h
  rfl

theorem SweepFrame.prediction (h : SweepFrame s t) : t.prediction = s.prediction := by
  obtain ⟨_, _, _, _, rfl⟩ := h
  rfl

theorem SweepFrame.latched {f : Flag} (h : SweepFrame s t)
    (hf : s.port.latched &&& f.bit = f.bit) : t.port.latched &&& f.bit = f.bit := by
  obtain ⟨_, _, _, l, rfl⟩ := h
  have hor : ActFrame s { s with port := { s.port with latched := s.port.latched ||| l } } :=
    ⟨s.store.bankA, s.store.bankB, s.prediction, s.adaptation, s.stations, l, rfl⟩
  exact hor.latched hf

/-! ### A station through the stages of a sample -/

/-- A station after a change of its lock, with the actions on it of the entry into UNLOCKED
(R130). -/
def relocked (f : StationState → StationState) (st : StationState) : StationState :=
  if (f st).effective ≠ st.effective ∧ (f st).effective = .unlocked then (f st).unlock else f st

theorem getStation_changeLock (k j : Station) (f : StationState → StationState) (s : State) :
    getStation j (changeLock k f s) =
      if j = k then relocked f (getStation j s) else getStation j s := by
  have hself : getStation k (modStation k f s) = f (getStation k s) := by
    rw [getStation_modStation, if_pos rfl]
  unfold changeLock
  rw [hself]
  by_cases hj : j = k
  · subst hj
    rw [if_pos rfl]
    unfold relocked
    split
    · next he => rw [hself, if_neg fun h => h.1 he]
    · next he =>
      split
      · next hu => rw [getStation_latch, getStation_modStation, if_pos rfl, hself, if_pos ⟨he, hu⟩]
      · next hl =>
        rw [getStation_latch, startSettle, getStation_modAdapt, hself,
          if_neg fun h => absurd (h.2.symm.trans hl) nofun]
  · rw [if_neg hj]
    have hother : getStation j (modStation k f s) = getStation j s := by
      rw [getStation_modStation, if_neg hj]
    split
    · exact hother
    · split
      · rw [getStation_latch, getStation_modStation, if_neg hj, hother]
      · rw [getStation_latch, startSettle, getStation_modAdapt, hother]

theorem relocked_false (st : StationState) :
    relocked (StationState.countLock glob false) st = missed glob st := by
  unfold relocked missed
  by_cases he : (st.countLock glob false).effective = st.effective
  · rw [if_pos he, if_neg fun h => h.1 he]
  · rw [if_neg he, if_pos ⟨he, (effective_countLock_false he).1⟩]

theorem countLock_valid_of_locked (h : st.detected = .locked) :
    st.countLock glob true = { st with badRun := 0 } := by
  simp only [StationState.countLock, h]

theorem countLock_valid_of_lock (h : st.detected = .unlocked)
    (hn : glob.stationLock ≤ st.goodRun + 1) :
    st.countLock glob true = { st with detected := .locked, goodRun := 0, badRun := 0 } := by
  simp only [StationState.countLock, h]
  exact if_pos hn

theorem countLock_valid_of_good (h : st.detected = .unlocked)
    (hn : st.goodRun + 1 < glob.stationLock) :
    st.countLock glob true = { st with goodRun := st.goodRun + 1 } := by
  simp only [StationState.countLock, h]
  exact if_neg (not_le_of_gt hn)

/-- A valid sample changes the runs alone, or begins LOCKED (R128). -/
theorem countLock_true_cases (glob : GlobalSettings) (st : StationState) :
    (∃ good bad, st.countLock glob true = { st with goodRun := good, badRun := bad }) ∨
      st.countLock glob true = { st with detected := .locked, goodRun := 0, badRun := 0 } := by
  rcases lock_cases st.detected with h | h
  · rcases Nat.lt_or_ge (st.goodRun + 1) glob.stationLock with hn | hn
    · exact .inl ⟨st.goodRun + 1, st.badRun, countLock_valid_of_good h hn⟩
    · exact .inr (countLock_valid_of_lock h hn)
  · exact .inl ⟨st.goodRun, 0, countLock_valid_of_locked h⟩

/-- So it never makes a station's effective state UNLOCKED. -/
theorem relocked_true (st : StationState) :
    relocked (StationState.countLock glob true) st = st.countLock glob true := by
  refine if_neg fun h => ?_
  obtain ⟨hne, hu⟩ := h
  rcases countLock_true_cases glob st with ⟨good, bad, he⟩ | he
  · exact hne (by rw [he]; rfl)
  · rw [he] at hne hu
    cases hf : st.force with
    | none => simp [StationState.effective, hf] at hu
    | some l => exact hne (by simp [StationState.effective, hf])

/-- Stages 1 and 2 of a sample with a completed pair: the last M, and the shock hold of a shock
sample (R123 to R125, R132). -/
def valued (hold : Nat) (g : StationSettings) (p : Int × Int) (st : StationState) : StationState :=
  { st with lastM := scaledM g p, shockHold := if isShock g p then hold else st.shockHold }

/-- A residual joins its account, and steps the filter of a LOCKED station with no hold running
(R126, R127). -/
def residualJoined (g : StationSettings) (f : Frame) (r : Int) (st : StationState) : StationState :=
  if st.effective = .locked ∧ st.shockHold = 0 then
    (st.modAccount f (Account.add r)).filterStep (a16 g) r
  else st.modAccount f (Account.add r)

/-- Stages 3 and 4 of a valid sample (R123, R126). -/
def residualFormed (g : StationSettings) (ring : List EvalRecord) (T : Time) (p : Int × Int)
    (st : StationState) : StationState :=
  match matchFrame (frameOf T) ring with
  | some r =>
    residualJoined g (frameOf T) (residual (scaledM g p) (tget r.sums (periodOf T))) st
  | none => st

/-- A station after its sample's five stages (R123). -/
def sampled (glob : GlobalSettings) (g : StationSettings) (ring : List EvalRecord) (T : Time)
    (st : StationState) : StationState :=
  match st.pair with
  | none => missed glob st
  | some p =>
    if pairValid p then
      (residualFormed g ring T p (valued glob.shockHold g p st)).countLock glob true
    else missed glob (valued glob.shockHold g p st)

/-- A station after a sweep has been offered to it (R122). -/
def offered (glob : GlobalSettings) (g : StationSettings) (ring : List EvalRecord) (T : Time)
    (st : StationState) : StationState :=
  match st.account (frameOf T) with
  | none => st
  | some a =>
    if tget a.taken (periodOf T) then st
    else sampled glob g ring T (st.modAccount (frameOf T) (Account.take (periodOf T)))

theorem getStation_triggers (j : Station) (l : List Slot) (s : State) :
    getStation j (l.foldl (fun s slot => trigger slot s) s) = getStation j s := by
  induction l generalizing s with
  | nil => rfl
  | cons slot l ih => exact (ih _).trans rfl

theorem getStation_takeValues (k j : Station) (p : Int × Int) (s : State) :
    getStation j (takeValues k p s) = if j = k then
      valued s.settings.global.shockHold (stationSettings k s) p (getStation j s)
      else getStation j s := by
  have hmeasured : ∀ x : StationState → StationState, ∀ y : Station,
      getStation y (modStation k x s) = if y = k then x (getStation y s) else getStation y s :=
    fun x y => getStation_modStation ..
  unfold takeValues
  dsimp only
  by_cases hs : isShock (stationSettings k s) p = true
  · refine (congrArg (getStation j) (if_pos hs)).trans ?_
    rw [shockSample, getStation_triggers, getStation_modStation, hmeasured]
    by_cases hj : j = k
    · rw [if_pos hj, if_pos hj, if_pos hj, valued, if_pos hs]
      rfl
    · rw [if_neg hj, if_neg hj, if_neg hj]
  · refine (congrArg (getStation j) (if_neg hs)).trans ?_
    rw [hmeasured, valued, if_neg hs]

theorem modAccount_effective (f : Frame) (F : Account → Account) (st : StationState) :
    (st.modAccount f F).effective = st.effective ∧
      (st.modAccount f F).shockHold = st.shockHold := by
  unfold StationState.modAccount
  split
  · exact ⟨rfl, rfl⟩
  · split <;> exact ⟨rfl, rfl⟩

theorem getStation_takeResidual (k j : Station) (f : Frame) (r : Int) (s : State) :
    getStation j (takeResidual k f r s) = if j = k then
      residualJoined (stationSettings k s) f r (getStation j s) else getStation j s := by
  have hself : getStation k (modStation k (StationState.modAccount f (Account.add r)) s) =
      (getStation k s).modAccount f (Account.add r) := by
    rw [getStation_modStation, if_pos rfl]
  have hset : stationSettings k (modStation k (StationState.modAccount f (Account.add r)) s) =
      stationSettings k s := rfl
  unfold takeResidual residualJoined
  dsimp only
  rw [hself, hset, (modAccount_effective f _ (getStation k s)).1,
    (modAccount_effective f _ (getStation k s)).2]
  by_cases hj : j = k
  · subst hj
    rw [if_pos rfl]
    split
    · rw [getStation_modStation, if_pos rfl, hself]
    · exact hself
  · rw [if_neg hj]
    split
    · rw [getStation_modStation, if_neg hj, getStation_modStation, if_neg hj]
    · rw [getStation_modStation, if_neg hj]

theorem getStation_takeMeasured (k j : Station) (T : Time) (p : Int × Int) (s : State) :
    getStation j (takeMeasured k T p s) = if j = k then
      residualFormed (stationSettings k s) (getRing (stationTarget k) s) T p (getStation j s)
      else getStation j s := by
  unfold takeMeasured residualFormed
  cases matchFrame (frameOf T) (getRing (stationTarget k) s) with
  | some r => exact getStation_takeResidual ..
  | none => exact (ite_self _).symm

theorem getStation_takeSample (k j : Station) (T : Time) (s : State) :
    getStation j (takeSample k T s) = if j = k then
      sampled s.settings.global (stationSettings k s) (getRing (stationTarget k) s) T (getStation j s)
      else getStation j s := by
  have hlock : ∀ (valid : Bool) (t : State), getStation j (lockSample k valid t) = if j = k then
      relocked (StationState.countLock t.settings.global valid) (getStation j t)
      else getStation j t := fun valid t => getStation_changeLock ..
  by_cases hj : j = k
  · subst hj
    unfold takeSample sampled
    rw [if_pos rfl]
    cases hp : (getStation j s).pair with
    | none => exact (hlock false s).trans ((if_pos rfl).trans (relocked_false _))
    | some p =>
      have hv := getStation_takeValues j j p s
      rw [if_pos rfl] at hv
      have hvf := sweepFrame_takeValues j p s
      have hset : stationSettings j (takeValues j p s) = stationSettings j s := by
        rw [stationSettings, hvf.settings, stationSettings]
      have hring : getRing (stationTarget j) (takeValues j p s) = getRing (stationTarget j) s := by
        rw [getRing, hvf.prediction, getRing]
      dsimp only
      by_cases hvalid : pairValid p = true
      · rw [if_pos hvalid, if_pos hvalid, hlock, if_pos rfl, relocked_true, getStation_takeMeasured,
          if_pos rfl, hv, hset, hring, (sweepFrame_takeMeasured j T p _).settings, hvf.settings]
      · rw [if_neg hvalid, if_neg hvalid, hlock, if_pos rfl, relocked_false, hv, hvf.settings]
  · unfold takeSample
    rw [if_neg hj]
    cases (getStation k s).pair with
    | none => exact (hlock false s).trans (if_neg hj)
    | some p =>
      dsimp only
      split
      · rw [hlock, if_neg hj, getStation_takeMeasured, if_neg hj, getStation_takeValues, if_neg hj]
      · rw [hlock, if_neg hj, getStation_takeValues, if_neg hj]

theorem getStation_offerSweep (T : Time) (s : State) (k j : Station) :
    getStation j (offerSweep T s k) = if j = k then
      offered s.settings.global (stationSettings k s) (getRing (stationTarget k) s) T (getStation j s)
      else getStation j s := by
  have htake : ∀ (F : StationState → StationState), getStation j (takeSample k T (modStation k F s)) =
      if j = k then sampled s.settings.global (stationSettings k s) (getRing (stationTarget k) s) T
        (F (getStation j s)) else getStation j s := fun F => by
    rw [getStation_takeSample, getStation_modStation]
    by_cases hj : j = k
    · rw [if_pos hj, if_pos hj, if_pos hj]
      rfl
    · rw [if_neg hj, if_neg hj, if_neg hj]
  by_cases hj : j = k
  · subst hj
    unfold offerSweep offered
    rw [if_pos rfl]
    cases (getStation j s).account (frameOf T) with
    | none => rfl
    | some a =>
      dsimp only
      split
      · rfl
      · exact (htake _).trans (if_pos rfl)
  · unfold offerSweep
    rw [if_neg hj]
    split
    · rfl
    · split
      · rfl
      · exact (htake _).trans (if_neg hj)

/-- Each station's sample is its own: it does not depend on those of the stations before it. -/
theorem getStation_offers (T : Time) (j : Station) (l : List Station) (hl : l.Nodup) :
    ∀ s : State, getStation j (l.foldl (offerSweep T) s) = if j ∈ l then
      offered s.settings.global (stationSettings j s) (getRing (stationTarget j) s) T (getStation j s)
      else getStation j s := by
  induction l with
  | nil => exact fun s => rfl
  | cons k l ih =>
    intro s
    obtain ⟨hk, hl⟩ := List.nodup_cons.1 hl
    have hfr := sweepFrame_offerSweep T s k
    have hset : stationSettings j (offerSweep T s k) = stationSettings j s := by
      rw [stationSettings, hfr.settings, stationSettings]
    have hring : getRing (stationTarget j) (offerSweep T s k) = getRing (stationTarget j) s := by
      rw [getRing, hfr.prediction, getRing]
    rw [List.foldl_cons, ih hl, hfr.settings, hset, hring, getStation_offerSweep]
    by_cases hj : j = k
    · subst hj
      rw [if_neg hk, if_pos rfl, if_pos (List.mem_cons_self ..)]
    · simp only [List.mem_cons, hj, false_or, if_false]

/-! ### The slots that watch a station (R142, R143) -/

/-- A slot's record after a trigger. -/
def triggered (hold : Nat) (r : SuppressionRecord) : SuppressionRecord :=
  { r with state := .held, hold := hold, clearRequested := false }

theorem getSuppression_trigger (slot x : Slot) (s : State) :
    getSuppression x (trigger slot s) = if x = slot then
      triggered s.settings.global.shockHold (getSuppression x s) else getSuppression x s := by
  rw [trigger, getSuppression_latch, getSuppression_modSuppression]
  rfl

theorem getSuppression_triggers (x : Slot) (l : List Slot) : ∀ s : State,
    getSuppression x (l.foldl (fun s slot => trigger slot s) s) = if x ∈ l then
      triggered s.settings.global.shockHold (getSuppression x s) else getSuppression x s := by
  induction l with
  | nil => exact fun s => rfl
  | cons slot l ih =>
    intro s
    rw [List.foldl_cons, ih, getSuppression_trigger, (sweepFrame_trigger slot s).settings]
    by_cases hx : x = slot
    · subst hx
      rw [if_pos rfl, if_pos (List.mem_cons_self ..)]
      exact ite_self _
    · simp only [List.mem_cons, hx, false_or, if_false]

theorem mem_watchers (x : Slot) (k : Station) (s : State) :
    x ∈ watchers k s ↔ (tget s.settings.slots x).shockStation = some k := by
  rw [watchers, mem_indicesWhere, decide_eq_true_eq]

theorem getSuppression_shockSample (x : Slot) (k : Station) (s : State) :
    getSuppression x (shockSample k s) =
      if (tget s.settings.slots x).shockStation = some k then
        triggered s.settings.global.shockHold (getSuppression x s) else getSuppression x s := by
  rw [shockSample, getSuppression_triggers]
  simp only [mem_watchers, getSuppression_modStation]
  rfl

/-- Where a slot watches the station, its shock latches SHOCK. -/
theorem latched_shockSample (h : (tget s.settings.slots x).shockStation = some k) :
    (shockSample k s).port.latched &&& Flag.shock.bit = Flag.shock.bit := by
  obtain ⟨pre, suf, hl⟩ := List.append_of_mem ((mem_watchers x k s).2 h)
  rw [shockSample, hl, List.foldl_append, List.foldl_cons]
  exact (sweepFrame_foldl (fun s slot => sweepFrame_trigger slot s) suf _).latched (latched_latch ..)

theorem getSuppression_changeLock (x : Slot) (k : Station) (f : StationState → StationState)
    (s : State) : getSuppression x (changeLock k f s) = getSuppression x s := by
  unfold changeLock
  split
  · rfl
  · split <;> rfl

theorem getSuppression_takeMeasured (x : Slot) (k : Station) (T : Time) (p : Int × Int) (s : State) :
    getSuppression x (takeMeasured k T p s) = getSuppression x s := by
  unfold takeMeasured
  split
  · unfold takeResidual
    dsimp only
    split <;> rfl
  · rfl

theorem takeValues_of_shock (h : isShock (stationSettings k s) p = true) :
    takeValues k p s =
      shockSample k (modStation k (fun st => { st with lastM := scaledM (stationSettings k s) p }) s) :=
  if_pos h

theorem getSuppression_takeValues (x : Slot) (k : Station) (p : Int × Int) (s : State) :
    getSuppression x (takeValues k p s) =
      if isShock (stationSettings k s) p = true ∧
          (tget s.settings.slots x).shockStation = some k then
        triggered s.settings.global.shockHold (getSuppression x s) else getSuppression x s := by
  by_cases h : isShock (stationSettings k s) p = true
  · rw [takeValues_of_shock h, getSuppression_shockSample]
    simp only [h, true_and]
    rfl
  · rw [if_neg fun h' => h h'.1, takeValues]
    exact (congrArg (getSuppression x) (if_neg h)).trans rfl

theorem getSuppression_takeSample (x : Slot) (k : Station) (T : Time) (s : State) :
    getSuppression x (takeSample k T s) =
      match (getStation k s).pair with
      | none => getSuppression x s
      | some p => getSuppression x (takeValues k p s) := by
  unfold takeSample
  cases (getStation k s).pair with
  | none => exact getSuppression_changeLock ..
  | some p =>
    dsimp only
    split
    · exact (getSuppression_changeLock ..).trans (getSuppression_takeMeasured ..)
    · exact getSuppression_changeLock ..

theorem getSuppression_offerSweep_of_ne (T : Time) (s : State)
    (h : (tget s.settings.slots x).shockStation ≠ some k) :
    getSuppression x (offerSweep T s k) = getSuppression x s := by
  unfold offerSweep
  split
  · rfl
  · split
    · rfl
    · rw [getSuppression_takeSample]
      split
      · rfl
      · rw [getSuppression_takeValues, if_neg fun h' => h h'.2]
        rfl

theorem getSuppression_offers_of_not_mem (T : Time) (x : Slot) (k : Station) (l : List Station)
    (hk : k ∉ l) : ∀ s : State, (tget s.settings.slots x).shockStation = some k →
    getSuppression x (l.foldl (offerSweep T) s) = getSuppression x s := by
  induction l with
  | nil => exact fun s _ => rfl
  | cons j l ih =>
    intro s h
    obtain ⟨hj, hk⟩ := List.ne_and_not_mem_of_not_mem_cons hk
    rw [List.foldl_cons, ih hk _ (by rw [(sweepFrame_offerSweep T s j).settings]; exact h),
      getSuppression_offerSweep_of_ne T s]
    rw [h]
    exact fun he => hj (Option.some.inj he)

end

end Sys2Proof.Machine
end

section
/-! PROOF. Channel words, and the judgement of a sweep by its stamp (R118 to R122). -/

namespace Sys2Proof.Machine

open Sys2Proof

section

variable {s t r : State} {k j : Station} {slot x : Slot} {f : Frame} {T : Time}
  {glob : GlobalSettings} {g : StationSettings} {st y : StationState} {p : Int × Int}
  {a b : Account} {tag : BitVec 6} {v stamp : Half}

/-! ### Accounts through a sample -/

theorem account_frame (h : st.account f = some a) : a.frame = f := by
  unfold StationState.account at h
  split at h
  · next ho => exact Option.some.inj h ▸ ho
  · split at h
    · next hn => exact Option.some.inj h ▸ hn
    · exact absurd h nofun

/-- Two stations hold the same accounts, but for their residuals. -/
def SameTaken (st y : StationState) : Prop :=
  (y.older.frame = st.older.frame ∧ y.older.taken = st.older.taken) ∧
    y.newer.frame = st.newer.frame ∧ y.newer.taken = st.newer.taken

theorem SameTaken.of_accounts (ho : y.older = st.older) (hn : y.newer = st.newer) :
    SameTaken st y := by
  rw [SameTaken, ho, hn]
  exact ⟨⟨rfl, rfl⟩, rfl, rfl⟩

theorem SameTaken.trans {z : StationState} (h : SameTaken st y) (h' : SameTaken y z) :
    SameTaken st z := by
  obtain ⟨⟨h1, h2⟩, h3, h4⟩ := h
  obtain ⟨⟨i1, i2⟩, i3, i4⟩ := h'
  exact ⟨⟨i1.trans h1, i2.trans h2⟩, i3.trans h3, i4.trans h4⟩

theorem SameTaken.account (h : SameTaken st y) (ha : st.account f = some a) :
    ∃ b, y.account f = some b ∧ b.taken = a.taken := by
  obtain ⟨⟨h1, h2⟩, h3, h4⟩ := h
  unfold StationState.account at ha ⊢
  rw [h1, h3]
  split at ha
  · next ho =>
    obtain rfl := Option.some.inj ha
    exact ⟨y.older, if_pos ho, h2⟩
  · next ho =>
    split at ha
    · next hn =>
      obtain rfl := Option.some.inj ha
      exact ⟨y.newer, by rw [if_neg ho, if_pos hn], h4⟩
    · exact absurd ha nofun

theorem account_congr (ho : y.older = st.older) (hn : y.newer = st.newer) (f : Frame) :
    y.account f = st.account f := by
  rw [StationState.account, ho, hn, StationState.account]

/-- The account of a frame after its change. -/
theorem account_modAccount {F : Account → Account} (h : st.account f = some a)
    (hF : (F a).frame = a.frame) : (st.modAccount f F).account f = some (F a) := by
  have ha := account_frame h
  unfold StationState.account at h
  unfold StationState.modAccount
  split at h
  · next ho =>
    rw [if_pos ho, Option.some.inj h]
    exact if_pos (hF.trans ha)
  · next ho =>
    split at h
    · next hn =>
      rw [if_neg ho, if_pos hn, Option.some.inj h]
      exact (if_neg ho).trans (if_pos (hF.trans ha))
    · exact absurd h nofun

theorem sameTaken_add (f : Frame) (e : Int) (st : StationState) :
    SameTaken st (st.modAccount f (Account.add e)) := by
  unfold StationState.modAccount
  split
  · exact ⟨⟨rfl, rfl⟩, rfl, rfl⟩
  · split <;> exact ⟨⟨rfl, rfl⟩, rfl, rfl⟩

theorem sameTaken_missed (glob : GlobalSettings) (st : StationState) :
    SameTaken st (missed glob st) := by
  have hcount : SameTaken st (st.countLock glob false) := by
    rcases countLock_false_cases glob st with ⟨good, bad, he⟩ | ⟨-, -, he⟩ <;> rw [he] <;>
      exact .of_accounts rfl rfl
  unfold missed
  split
  · exact hcount
  · exact hcount.trans ⟨⟨rfl, rfl⟩, rfl, rfl⟩

theorem accounts_countLock_true (glob : GlobalSettings) (st : StationState) :
    (st.countLock glob true).older = st.older ∧ (st.countLock glob true).newer = st.newer := by
  rcases countLock_true_cases glob st with ⟨good, bad, he⟩ | he <;> rw [he] <;> exact ⟨rfl, rfl⟩

theorem sameTaken_residualFormed (g : StationSettings) (ring : List EvalRecord) (T : Time)
    (p : Int × Int) (st : StationState) : SameTaken st (residualFormed g ring T p st) := by
  unfold residualFormed
  split
  · unfold residualJoined
    split
    · exact (sameTaken_add ..).trans (.of_accounts rfl rfl)
    · exact sameTaken_add ..
  · exact .of_accounts rfl rfl

theorem sameTaken_sampled (glob : GlobalSettings) (g : StationSettings) (ring : List EvalRecord)
    (T : Time) (st : StationState) : SameTaken st (sampled glob g ring T st) := by
  have hvalued : ∀ p, SameTaken st (valued glob.shockHold g p st) := fun p => .of_accounts rfl rfl
  unfold sampled
  split
  · exact sameTaken_missed ..
  · split
    · obtain ⟨ho, hn⟩ := accounts_countLock_true glob
        (residualFormed g ring T _ (valued glob.shockHold g _ st))
      exact ((hvalued _).trans (sameTaken_residualFormed ..)).trans (.of_accounts ho hn)
    · exact (hvalued _).trans (sameTaken_missed ..)

/-! ### A sweep as a whole -/

theorem exec_sweepEnd (hs : Ready s) (hb : s.boundary = .quiet) (stamp : Half) :
    exec (.sweepEnd stamp) s = .next (closeSweep stamp s) := by
  show afterEvents (fun s => closeSweep stamp (takeBoundary s)) s = _
  rw [afterEvents_of_ready _ hs, takeBoundary_of_quiet hb]

/-- A sweep that is not discarded is offered to every station (R122). -/
theorem closeSweep_of_taken (hnow : ¬ After (readStamp s.now stamp) s.now)
    (hlate : ¬ Before (readStamp s.now stamp) (firstSample (frameOf s.now - 1))) :
    closeSweep stamp s =
      clearPairing ((List.finRange 16).foldl (offerSweep (readStamp s.now stamp)) s) := by
  rw [closeSweep, sweep, if_neg hnow, if_neg hlate]

theorem getStation_clearPairing (k : Station) (s : State) :
    getStation k (clearPairing s) = (getStation k s).clearPairing := by
  rw [getStation, clearPairing, tget_map, getStation]

/-- A station after a sweep that is not discarded. -/
theorem getStation_closeSweep (hnow : ¬ After (readStamp s.now stamp) s.now)
    (hlate : ¬ Before (readStamp s.now stamp) (firstSample (frameOf s.now - 1))) (k : Station) :
    getStation k (closeSweep stamp s) =
      (offered s.settings.global (stationSettings k s) (getRing (stationTarget k) s)
        (readStamp s.now stamp) (getStation k s)).clearPairing := by
  rw [closeSweep_of_taken hnow hlate, getStation_clearPairing,
    getStation_offers _ k _ (List.nodup_finRange 16), if_pos (List.mem_finRange k)]

theorem sweepFrame_closeSweep (hnow : ¬ After (readStamp s.now stamp) s.now)
    (hlate : ¬ Before (readStamp s.now stamp) (firstSample (frameOf s.now - 1))) :
    SweepFrame s (closeSweep stamp s) := by
  have hclear : ∀ x, SweepFrame x (clearPairing x) := fun x => .of_blocks rfl
  rw [closeSweep_of_taken hnow hlate]
  exact (sweepFrame_offers ..).trans (hclear _)

theorem offered_of_held (h : st.account (frameOf T) = some a)
    (ht : tget a.taken (periodOf T) = true) (glob : GlobalSettings) (g : StationSettings)
    (ring : List EvalRecord) : offered glob g ring T st = st := by
  rw [offered, h]
  exact if_pos ht

theorem offered_of_taken (h : st.account (frameOf T) = some a)
    (ht : tget a.taken (periodOf T) = false) (glob : GlobalSettings) (g : StationSettings)
    (ring : List EvalRecord) : offered glob g ring T st =
      sampled glob g ring T (st.modAccount (frameOf T) (Account.take (periodOf T))) := by
  rw [offered, h]
  exact if_neg (by rw [ht]; exact Bool.false_ne_true)

/-! ### Channel words (R118, R119) -/

theorem exec_channelWord (hs : Ready s) (tag : BitVec 6) (v : Half) :
    exec (.channelWord tag v) s = .next (channelWord tag v s) :=
  afterEvents_of_ready _ hs

theorem channelWord_even (h : tag.toNat = 2 * k.val) (v : Half) (s : State) :
    channelWord tag v s = modStation k (StationState.wordA v.toInt) s := by
  rw [channelWord, below_eq_some.2 (show tag.toNat / 2 = k.val by omega)]
  exact if_pos (by omega)

theorem channelWord_odd (h : tag.toNat = 2 * k.val + 1) (v : Half) (s : State) :
    channelWord tag v s = modStation k (StationState.wordB v.toInt) s := by
  rw [channelWord, below_eq_some.2 (show tag.toNat / 2 = k.val by omega)]
  exact if_neg (by omega)

theorem channelWord_of_high (h : 32 ≤ tag.toNat) (v : Half) (s : State) :
    channelWord tag v s = s := by
  rw [channelWord, below_eq_none.2 (show 16 ≤ tag.toNat / 2 by omega)]

theorem modStation_of_fixed {F : StationState → StationState}
    (h : F (getStation k s) = getStation k s) : modStation k F s = s := by
  rw [modStation, tmod_of_fixed _ _ _ h]

/-- Settles O51: the pairing table, then the sweep by its stamp. -/
theorem wordsPairAndSweepsAreJudgedByTheirStamp :
    Obligations.WordsPairAndSweepsAreJudgedByTheirStamp := by
  unfold Obligations.WordsPairAndSweepsAreJudgedByTheirStamp
  refine ⟨fun s tag v hs => ⟨fun k h => ?_, fun k a h ha => ?_, fun k h ha => ?_, fun h => ?_⟩,
    fun s stamp hs hb => ?_⟩
  · rw [exec_channelWord hs, channelWord_even h]
    rfl
  · rw [exec_channelWord hs, channelWord_odd h]
    exact congrArg Host.Outcome.next (modStation_congr (by rw [StationState.wordB, ha]))
  · rw [exec_channelWord hs, channelWord_odd h,
      modStation_of_fixed (by rw [StationState.wordB, ha])]
  · rw [exec_channelWord hs, channelWord_of_high h]
  · intro time cleared
    have hexec := exec_sweepEnd hs hb stamp
    refine ⟨fun h => ?_, fun h h' => ?_, fun h h' => ?_⟩
    · rw [hexec, closeSweep, sweep, if_pos h]
      rfl
    · rw [hexec, closeSweep, sweep, if_neg h, if_pos h']
      rfl
    · refine ⟨closeSweep stamp s, hexec, ?_⟩
      have hstation := getStation_closeSweep h h'
      obtain ⟨sts, recs, sup, l, hframe⟩ := sweepFrame_closeSweep h h'
      generalize closeSweep stamp s = t at hframe hstation ⊢
      subst hframe
      refine ⟨rfl, rfl, rfl, rfl, rfl, rfl, rfl, rfl, rfl, fun k => ?_⟩
      rw [hstation]
      refine ⟨rfl, rfl, fun a ha => ⟨fun ht => ?_, fun ht => ?_⟩⟩
      · rw [offered_of_held ha ht]
        rfl
      · rw [offered_of_taken ha ht]
        have htaken := account_modAccount (F := Account.take (periodOf time)) ha rfl
        obtain ⟨b, hb, hbt⟩ := (sameTaken_sampled s.settings.global (stationSettings k s)
          (getRing (stationTarget k) s) time _).account htaken
        exact ⟨b, hb, hbt⟩

end

end Sys2Proof.Machine
end

section
/-! PROOF. What a station's sample comes to: a residual, a shock, or a count against lock
(R123 to R132, R142, R143). -/

namespace Sys2Proof.Machine

open Sys2Proof

section

variable {s t r : State} {k j : Station} {slot : Slot} {f : Frame} {T : Time}
  {glob : GlobalSettings} {g : StationSettings} {st y : StationState} {p : Int × Int}
  {a b : Account} {stamp : Half} {ring : List EvalRecord} {record : EvalRecord} {e m n : Int}
  {hold : Nat}

/-! ### Station values (R120, R124, R125) -/

theorem isCode_iff (v : Int) : isCode v = true ↔ 32000 ≤ v.natAbs := decide_eq_true_iff

theorem isOverrange_iff (v : Int) : isOverrange v = true ↔ v = 32767 ∨ v = -32768 := by
  rw [isOverrange, Bool.or_eq_true, decide_eq_true_iff, decide_eq_true_iff]

theorem measured_of_small (h : m.natAbs < 32000) : measured m = m :=
  if_neg fun hc => absurd ((isCode_iff m).1 hc) (not_le_of_gt h)

theorem measured_eq (v : Int) : measured v = if 32000 ≤ v.natAbs then 0 else v := by
  unfold measured
  simp only [isCode_iff]

theorem pairValid_iff : pairValid (m, n) = true ↔ m.natAbs < 32000 ∧ n.natAbs < 32000 := by
  rw [pairValid, Bool.and_eq_true, Bool.not_eq_true', Bool.not_eq_true', ← Bool.not_eq_true,
    ← Bool.not_eq_true, isCode_iff, isCode_iff, not_le, not_le]

theorem valueClip_eq (v : Int) : clip valueClip v = max (-32767) (min 32767 v) :=
  clip_eq _ _ (by decide)

theorem rotational_normal (p : Int × Int) : rotational .normal p =
    max (-32767) (min 32767 (measured p.1 - measured p.2)) := valueClip_eq _

theorem rotational_reversed (p : Int × Int) : rotational .reversed p =
    max (-32767) (min 32767 (measured p.2 - measured p.1)) := valueClip_eq _

theorem scaledM_eq (g : StationSettings) (p : Int × Int) : scaledM g p =
    max (-32767) (min 32767 ((rotational g.sense p * g.scale + 8192).fdiv 16384)) := by
  rw [scaledM, valueClip_eq, Int.fdiv_eq_ediv_of_nonneg _ (by decide)]
  rfl

theorem pairOverrange_iff : pairOverrange (m, n) = true ↔
    m = 32767 ∨ m = -32768 ∨ n = 32767 ∨ n = -32768 := by
  rw [pairOverrange, Bool.or_eq_true, isOverrange_iff, isOverrange_iff, or_assoc]

theorem translational_of_valid (hm : m.natAbs < 32000) (hn : n.natAbs < 32000) :
    translational (m, n) = max (-32767) (min 32767 (m + n)) := by
  rw [translational, valueClip_eq, measured_of_small hm, measured_of_small hn]

/-- A valid pair is a shock sample exactly by its clipped sum (R125). -/
theorem isShock_of_valid (hm : m.natAbs < 32000) (hn : n.natAbs < 32000) :
    isShock g (m, n) = true ↔ g.threshold ≤ (max (-32767) (min 32767 (m + n))).natAbs := by
  have hover : pairOverrange (m, n) = false := by
    rw [← Bool.not_eq_true, pairOverrange_iff]
    omega
  rw [isShock, hover, Bool.or_false, pairValid_iff.2 ⟨hm, hn⟩, Bool.true_and,
    decide_eq_true_iff, translational_of_valid hm hn]

/-- The same, by the magnitude of the sum. -/
theorem isShock_of_magnitude (hm : m.natAbs < 32000) (hn : n.natAbs < 32000)
    (h : (g.threshold : Int) ≤ min 32767 (max (m + n) (-(m + n)))) : isShock g (m, n) = true := by
  rw [isShock_of_valid hm hn]
  omega

theorem isShock_of_overrange (h : m = 32767 ∨ m = -32768 ∨ n = 32767 ∨ n = -32768) :
    isShock g (m, n) = true := by
  rw [isShock, pairOverrange_iff.2 h, Bool.or_true]

theorem divNearest_sixteen (v : Int) : (v + 8) / 16 = (v + 8).fdiv 16 :=
  (Int.fdiv_eq_ediv_of_nonneg _ (by decide)).symm

theorem filterStage_eq (c input output : Int) :
    filterStage c input output = output + ((input - output) * c + 8).fdiv 16 := by
  rw [filterStage, divNearest_sixteen]

/-! ### The stages, by what they leave of the station -/

/-- Two stations stand alike but for their accounts. -/
structure SameBut (st y : StationState) : Prop where
  pair : y.pair = st.pair
  detected : y.detected = st.detected
  goodRun : y.goodRun = st.goodRun
  badRun : y.badRun = st.badRun
  force : y.force = st.force
  shockHold : y.shockHold = st.shockHold
  lastM : y.lastM = st.lastM

theorem sameBut_modAccount (f : Frame) (F : Account → Account) (st : StationState) :
    SameBut st (st.modAccount f F) := by
  unfold StationState.modAccount
  split
  · exact ⟨rfl, rfl, rfl, rfl, rfl, rfl, rfl⟩
  · split <;> exact ⟨rfl, rfl, rfl, rfl, rfl, rfl, rfl⟩

theorem SameBut.effective (h : SameBut st y) : y.effective = st.effective := by
  rw [StationState.effective, h.force, h.detected, StationState.effective]

theorem sameBut_residualJoined (g : StationSettings) (f : Frame) (e : Int) (st : StationState) :
    SameBut st (residualJoined g f e st) := by
  obtain ⟨h1, h2, h3, h4, h5, h6, h7⟩ := sameBut_modAccount f (Account.add e) st
  unfold residualJoined
  split
  · exact ⟨h1, h2, h3, h4, h5, h6, h7⟩
  · exact ⟨h1, h2, h3, h4, h5, h6, h7⟩

/-- The residual is in its account, whether the filter steps or not. -/
theorem account_residualJoined (h : st.account f = some a) (g : StationSettings) (e : Int) :
    (residualJoined g f e st).account f = some (a.add e) := by
  have hadd := account_modAccount (F := Account.add e) h rfl
  unfold residualJoined
  split
  · exact (account_congr rfl rfl f).trans hadd
  · exact hadd

theorem filter_residualJoined_of_step (hl : st.effective = .locked) (hh : st.shockHold = 0)
    (g : StationSettings) (f : Frame) (e : Int) :
    (residualJoined g f e st).y1 = filterStage (a16 g) e st.y1 ∧
      (residualJoined g f e st).y2 = filterStage (a16 g) (filterStage (a16 g) e st.y1) st.y2 := by
  obtain ⟨h1, h2⟩ := modAccount_filter f (Account.add e) st
  rw [residualJoined, if_pos ⟨hl, hh⟩, StationState.filterStep, h1, h2]
  exact ⟨rfl, rfl⟩

theorem filter_residualJoined_of_none (h : st.effective = .unlocked ∨ 0 < st.shockHold)
    (g : StationSettings) (f : Frame) (e : Int) :
    (residualJoined g f e st).y1 = st.y1 ∧ (residualJoined g f e st).y2 = st.y2 := by
  rw [residualJoined, if_neg]
  · exact modAccount_filter f (Account.add e) st
  · rintro ⟨hl, hh⟩
    rcases h with hu | hp
    · exact absurd (hl.symm.trans hu) nofun
    · exact absurd hh (Nat.ne_of_gt hp)

/-- What a valid sample's count for lock leaves of the station. -/
theorem countLock_true_keeps (glob : GlobalSettings) (st : StationState) :
    (st.countLock glob true).lastM = st.lastM ∧
      (st.countLock glob true).shockHold = st.shockHold ∧
      (st.countLock glob true).y1 = st.y1 ∧ (st.countLock glob true).y2 = st.y2 := by
  rcases countLock_true_cases glob st with ⟨good, bad, he⟩ | he <;> rw [he] <;>
    exact ⟨rfl, rfl, rfl, rfl⟩

/-- How a valid sample counts for lock (R128). -/
def CountsForLock (glob : GlobalSettings) (st y : StationState) : Prop :=
  (st.detected = .locked → y.detected = .locked ∧ y.badRun = 0) ∧
    (st.detected = .unlocked → glob.stationLock ≤ st.goodRun + 1 →
      y.detected = .locked ∧ y.goodRun = 0) ∧
    (st.detected = .unlocked → st.goodRun + 1 < glob.stationLock →
      y.detected = .unlocked ∧ y.goodRun = st.goodRun + 1)

theorem countsForLock_countLock (glob : GlobalSettings) (hd : y.detected = st.detected)
    (hg : y.goodRun = st.goodRun) : CountsForLock glob st (y.countLock glob true) := by
  rw [CountsForLock, ← hd, ← hg]
  refine ⟨fun h => ?_, fun h hn => ?_, fun h hn => ?_⟩
  · rw [countLock_valid_of_locked h]
    exact ⟨h, rfl⟩
  · rw [countLock_valid_of_lock h hn]
    exact ⟨rfl, rfl⟩
  · rw [countLock_valid_of_good h hn]
    exact ⟨h, rfl⟩

/-! ### A valid sample -/

/-- What a valid sample with a residual makes of a station: of its last M, its account, its filter
and its lock (R123 to R128). -/
theorem sampled_of_record (hp : st.pair = some p) (hvalid : pairValid p = true)
    (hrec : matchFrame (frameOf T) ring = some record) (ha : st.account (frameOf T) = some a)
    (glob : GlobalSettings) (g : StationSettings) :
    let y := sampled glob g ring T st
    let h := if isShock g p then glob.shockHold else st.shockHold
    let e := residual (scaledM g p) (tget record.sums (periodOf T))
    y.lastM = scaledM g p ∧ y.account (frameOf T) = some (a.add e) ∧ y.shockHold = h ∧
      (st.effective = .locked → h = 0 → y.y1 = filterStage (a16 g) e st.y1 ∧
        y.y2 = filterStage (a16 g) (filterStage (a16 g) e st.y1) st.y2) ∧
      (st.effective = .unlocked ∨ 0 < h → y.y1 = st.y1 ∧ y.y2 = st.y2) ∧
      ∃ x : StationState, (x.detected = st.detected ∧ x.goodRun = st.goodRun) ∧ y = x.countLock glob true := by
  intro y h e
  let w := valued glob.shockHold g p st
  let z := residualJoined g (frameOf T) e w
  have hy : y = z.countLock glob true := by
    show sampled glob g ring T st = _
    rw [sampled, hp]
    dsimp only
    rw [if_pos hvalid, residualFormed, hrec]
  obtain ⟨hm, hh, h1, h2⟩ := countLock_true_keeps glob z
  obtain ⟨ho, hn⟩ := accounts_countLock_true glob z
  have hz : SameBut w z := sameBut_residualJoined ..
  have hacc : w.account (frameOf T) = some a := (account_congr rfl rfl _).trans ha
  rw [hy]
  refine ⟨hm.trans hz.lastM, (account_congr ho hn _).trans (account_residualJoined hacc ..),
    hh.trans hz.shockHold, fun hl h0 => ?_, fun hoff => ?_, z, ⟨hz.detected, hz.goodRun⟩, rfl⟩
  · rw [h1, h2]
    exact filter_residualJoined_of_step (st := w) hl h0 ..
  · rw [h1, h2]
    exact filter_residualJoined_of_none (st := w) hoff ..

/-- Without a record of its frame a valid sample leaves its account and the filter. -/
theorem sampled_of_no_record (hp : st.pair = some p) (hvalid : pairValid p = true)
    (hrec : matchFrame (frameOf T) ring = none) (glob : GlobalSettings) (g : StationSettings) :
    sampled glob g ring T st = (valued glob.shockHold g p st).countLock glob true := by
  rw [sampled, hp]
  dsimp only
  rw [if_pos hvalid, residualFormed, hrec]

/-- A shock sample sets its station's hold, valid or not (R132). -/
theorem shockHold_sampled_of_shock (hp : st.pair = some p) (hshock : isShock g p = true)
    (glob : GlobalSettings) (ring : List EvalRecord) (T : Time) :
    (sampled glob g ring T st).shockHold = glob.shockHold := by
  have hv : (valued glob.shockHold g p st).shockHold = glob.shockHold := if_pos hshock
  rw [sampled, hp]
  dsimp only
  split
  · rw [(countLock_true_keeps ..).2.1]
    refine Eq.trans ?_ hv
    unfold residualFormed
    split
    · exact (sameBut_residualJoined ..).shockHold
    · rfl
  · exact (missKeeps_missed ..).shockHold.trans hv

/-! ### An invalid sample -/

/-- A station with another last M and shock hold. -/
def withValues (v : Int) (hold : Nat) (st : StationState) : StationState :=
  { st with lastM := v, shockHold := hold }

/-- An invalid sample counts against lock, and sets the last M where it has a pair (R123). -/
theorem sampled_of_invalid (h : ∀ p, st.pair = some p → pairValid p = false)
    (glob : GlobalSettings) (g : StationSettings) (ring : List EvalRecord) (T : Time) :
    ∃ hold, sampled glob g ring T st =
      missed glob (withValues ((st.pair.map (scaledM g)).getD st.lastM) hold st) := by
  unfold sampled
  cases hp : st.pair with
  | none => exact ⟨st.shockHold, rfl⟩
  | some p =>
    refine ⟨if isShock g p then glob.shockHold else st.shockHold, ?_⟩
    dsimp only
    rw [if_neg (by rw [h p hp]; exact Bool.false_ne_true)]
    rfl

theorem account_unlock (h : st.account f = some a) :
    st.unlock.account f = some a.clearResiduals := by
  unfold StationState.account at h ⊢
  split at h
  · next ho => exact (if_pos ho).trans (congrArg (fun x : Account => some x.clearResiduals)
      (Option.some.inj h))
  · next ho =>
    split at h
    · next hn => exact (if_neg ho).trans ((if_pos hn).trans
        (congrArg (fun x : Account => some x.clearResiduals) (Option.some.inj h)))
    · exact absurd h nofun

/-! ### A station's sample within the sweep -/

/-- A sweep comes to a station with the station, the settings and the slots that watch it as they
were, and what follows leaves them. -/
theorem closeSweep_at (hnow : ¬ After (readStamp s.now stamp) s.now)
    (hlate : ¬ Before (readStamp s.now stamp) (firstSample (frameOf s.now - 1))) (k : Station) :
    ∃ t, SweepFrame s t ∧ getStation k t = getStation k s ∧
      SweepFrame (offerSweep (readStamp s.now stamp) t k) (closeSweep stamp s) ∧
      ∀ x, (tget s.settings.slots x).shockStation = some k →
        getSuppression x t = getSuppression x s ∧ getSuppression x (closeSweep stamp s) =
          getSuppression x (offerSweep (readStamp s.now stamp) t k) := by
  obtain ⟨pre, suf, hl, hpre⟩ := List.eq_append_cons_of_mem (List.mem_finRange k)
  have hn := List.nodup_finRange 16
  rw [hl, List.nodup_append] at hn
  obtain ⟨hnpre, hnsuf, -⟩ := hn
  have hsuf := (List.nodup_cons.1 hnsuf).1
  have hclear : ∀ x, SweepFrame x (clearPairing x) := fun x => .of_blocks rfl
  have hfr := sweepFrame_offers (readStamp s.now stamp) pre s
  refine ⟨pre.foldl (offerSweep (readStamp s.now stamp)) s, hfr, ?_, ?_, fun x hx =>
    ⟨getSuppression_offers_of_not_mem _ x k pre hpre s hx, ?_⟩⟩
  · rw [getStation_offers _ k pre hnpre, if_neg hpre]
  · rw [closeSweep_of_taken hnow hlate, hl, List.foldl_append, List.foldl_cons]
    exact (sweepFrame_offers ..).trans (hclear _)
  · have hx' := hx
    rw [← ((hfr.trans (sweepFrame_offerSweep _ _ k)).settings)] at hx'
    rw [closeSweep_of_taken hnow hlate, hl, List.foldl_append, List.foldl_cons]
    exact getSuppression_offers_of_not_mem _ x k suf hsuf _ hx'

theorem offerSweep_of_taken (ha : (getStation k s).account (frameOf T) = some a)
    (ht : tget a.taken (periodOf T) = false) : offerSweep T s k =
      takeSample k T (modStation k
        (StationState.modAccount (frameOf T) (Account.take (periodOf T))) s) := by
  rw [offerSweep, ha]
  exact if_neg (by rw [ht]; exact Bool.false_ne_true)

theorem takeSample_of_pair (hp : (getStation k s).pair = some p) (T : Time) :
    SweepFrame (takeValues k p s) (takeSample k T s) := by
  rw [takeSample, hp]
  dsimp only
  split
  · exact (sweepFrame_takeMeasured ..).trans (sweepFrame_changeLock ..)
  · exact sweepFrame_changeLock ..

/-- A shock within a sweep: each slot that watches the station is HELD, and SHOCK is latched (R142,
R143). -/
theorem shock_closeSweep (hnow : ¬ After (readStamp s.now stamp) s.now)
    (hlate : ¬ Before (readStamp s.now stamp) (firstSample (frameOf s.now - 1)))
    (ha : (getStation k s).account (frameOf (readStamp s.now stamp)) = some a)
    (ht : tget a.taken (periodOf (readStamp s.now stamp)) = false)
    (hp : (getStation k s).pair = some p) (hshock : isShock (stationSettings k s) p = true)
    (hx : (tget s.settings.slots slot).shockStation = some k) :
    getSuppression slot (closeSweep stamp s) =
        triggered s.settings.global.shockHold (getSuppression slot s) ∧
      (closeSweep stamp s).port.latched &&& Flag.shock.bit = Flag.shock.bit := by
  obtain ⟨t, hfr, hst, hafter, hwatch⟩ := closeSweep_at hnow hlate k
  obtain ⟨hbefore, hend⟩ := hwatch slot hx
  let F := StationState.modAccount (frameOf (readStamp s.now stamp))
    (Account.take (periodOf (readStamp s.now stamp)))
  let w := modStation k F t
  have hoffer : offerSweep (readStamp s.now stamp) t k = takeSample k (readStamp s.now stamp) w :=
    offerSweep_of_taken (hst ▸ ha) ht
  have hpw : (getStation k w).pair = some p := by
    rw [getStation_modStation, if_pos rfl, (sameBut_modAccount ..).pair, hst, hp]
  have hset : w.settings = s.settings := hfr.settings
  have hshockw : isShock (stationSettings k w) p = true := by
    rw [stationSettings, hset]
    exact hshock
  have hxw : (tget w.settings.slots slot).shockStation = some k := by
    rw [hset]
    exact hx
  constructor
  · rw [hend, hoffer, getSuppression_takeSample, hpw]
    dsimp only
    rw [getSuppression_takeValues, if_pos ⟨hshockw, hxw⟩, hset]
    exact congrArg (triggered _) hbefore
  · refine hafter.latched ?_
    rw [hoffer]
    refine (takeSample_of_pair hpw _).latched ?_
    rw [takeValues_of_shock hshockw]
    exact latched_shockSample hxw

/-- An invalid sample that unlocks its station latches LOCK-CHANGE (R130). -/
theorem latched_lockSample_of_unlock (hd : (getStation k s).detected = .locked)
    (hn : s.settings.global.stationUnlock ≤ (getStation k s).badRun + 1)
    (hf : (getStation k s).force = none) :
    (lockSample k false s).port.latched &&& Flag.lockChange.bit = Flag.lockChange.bit := by
  rcases lockSample_false_cases k s with ⟨h, -⟩ | h
  · rw [missed_of_unlock hd hn hf] at h
    simp [StationState.effective, StationState.unlock, hf, hd] at h
  · rw [h]
    exact latched_latch ..

theorem latched_takeSample_of_unlock
    (hinvalid : ∀ p, (getStation k s).pair = some p → pairValid p = false)
    (hd : (getStation k s).detected = .locked)
    (hn : s.settings.global.stationUnlock ≤ (getStation k s).badRun + 1)
    (hf : (getStation k s).force = none) (T : Time) :
    (takeSample k T s).port.latched &&& Flag.lockChange.bit = Flag.lockChange.bit := by
  unfold takeSample
  cases hp : (getStation k s).pair with
  | none => exact latched_lockSample_of_unlock hd hn hf
  | some p =>
    have hst : getStation k (takeValues k p s) =
        valued s.settings.global.shockHold (stationSettings k s) p (getStation k s) := by
      rw [getStation_takeValues, if_pos rfl]
    dsimp only
    rw [if_neg (by rw [hinvalid p hp]; exact Bool.false_ne_true)]
    refine latched_lockSample_of_unlock ?_ ?_ ?_
    · rw [hst]
      exact hd
    · rw [hst, (sweepFrame_takeValues k p s).settings]
      exact hn
    · rw [hst]
      exact hf

theorem latched_closeSweep_of_unlock (hnow : ¬ After (readStamp s.now stamp) s.now)
    (hlate : ¬ Before (readStamp s.now stamp) (firstSample (frameOf s.now - 1)))
    (ha : (getStation k s).account (frameOf (readStamp s.now stamp)) = some a)
    (ht : tget a.taken (periodOf (readStamp s.now stamp)) = false)
    (hinvalid : ∀ p, (getStation k s).pair = some p → pairValid p = false)
    (hd : (getStation k s).detected = .locked)
    (hn : s.settings.global.stationUnlock ≤ (getStation k s).badRun + 1)
    (hf : (getStation k s).force = none) :
    (closeSweep stamp s).port.latched &&& Flag.lockChange.bit = Flag.lockChange.bit := by
  obtain ⟨t, hfr, hst, hafter, -⟩ := closeSweep_at hnow hlate k
  let F := StationState.modAccount (frameOf (readStamp s.now stamp))
    (Account.take (periodOf (readStamp s.now stamp)))
  have hoffer : offerSweep (readStamp s.now stamp) t k =
      takeSample k (readStamp s.now stamp) (modStation k F t) := offerSweep_of_taken (hst ▸ ha) ht
  have hw : getStation k (modStation k F t) = F (getStation k s) := by
    rw [getStation_modStation, if_pos rfl, hst]
  obtain ⟨hpair, hdet, -, hbad, hforce, -, -⟩ := sameBut_modAccount
    (frameOf (readStamp s.now stamp)) (Account.take (periodOf (readStamp s.now stamp)))
    (getStation k s)
  refine hafter.latched ?_
  rw [hoffer]
  refine latched_takeSample_of_unlock ?_ ?_ ?_ ?_ _
  · rw [hw, hpair]
    exact hinvalid
  · rw [hw, hdet]
    exact hd
  · rw [hw, hbad]
    exact (congrArg (fun x : Settings => x.global.stationUnlock) hfr.settings).trans_le hn
  · rw [hw, hforce]
    exact hf

end

end Sys2Proof.Machine
end

section
/-! PROOF. Samples as they stand when their sweep is over (R123 to R132). -/

namespace Sys2Proof.Machine

open Sys2Proof

section

variable {s t : State} {k : Station} {slot : Slot} {T : Time} {glob : GlobalSettings}
  {st y : StationState} {p : Int × Int} {a b : Account} {stamp : Half} {record : EvalRecord}
  {m n : Int}

/-! ### A station whose sample a sweep takes -/

/-- A station whose account has been given the sample's period. -/
def periodTaken (T : Time) (st : StationState) : StationState :=
  st.modAccount (frameOf T) (Account.take (periodOf T))

theorem sameBut_periodTaken (T : Time) (st : StationState) : SameBut st (periodTaken T st) :=
  sameBut_modAccount ..

theorem filter_periodTaken (T : Time) (st : StationState) :
    (periodTaken T st).y1 = st.y1 ∧ (periodTaken T st).y2 = st.y2 := modAccount_filter ..

theorem account_periodTaken (ha : st.account (frameOf T) = some a) :
    (periodTaken T st).account (frameOf T) = some (a.take (periodOf T)) :=
  account_modAccount ha rfl

theorem getStation_closeSweep_of_taken (hnow : ¬ After (readStamp s.now stamp) s.now)
    (hlate : ¬ Before (readStamp s.now stamp) (firstSample (frameOf s.now - 1)))
    (ha : (getStation k s).account (frameOf (readStamp s.now stamp)) = some a)
    (ht : tget a.taken (periodOf (readStamp s.now stamp)) = false) :
    getStation k (closeSweep stamp s) =
      (sampled s.settings.global (stationSettings k s) (getRing (stationTarget k) s)
        (readStamp s.now stamp)
        (periodTaken (readStamp s.now stamp) (getStation k s))).clearPairing := by
  rw [getStation_closeSweep hnow hlate, offered_of_taken ha ht, periodTaken]

theorem account_clearPairing (f : Frame) (st : StationState) :
    st.clearPairing.account f = st.account f := account_congr rfl rfl f

/-- A valid sample whose record the ring holds, when the sweep is over. -/
theorem closeSweep_of_record (hnow : ¬ After (readStamp s.now stamp) s.now)
    (hlate : ¬ Before (readStamp s.now stamp) (firstSample (frameOf s.now - 1)))
    (ha : (getStation k s).account (frameOf (readStamp s.now stamp)) = some a)
    (ht : tget a.taken (periodOf (readStamp s.now stamp)) = false)
    (hp : (getStation k s).pair = some p) (hvalid : pairValid p = true)
    (hrec : (getRing (stationTarget k) s).find?
      (fun r => decide (r.frame = frameOf (readStamp s.now stamp))) = some record) :
    let st := getStation k s
    let y := getStation k (closeSweep stamp s)
    let g := stationSettings k s
    let h := if isShock g p then s.settings.global.shockHold else st.shockHold
    let e := residual (scaledM g p) (tget record.sums (periodOf (readStamp s.now stamp)))
    y.lastM = scaledM g p ∧
      (∃ b, y.account (frameOf (readStamp s.now stamp)) = some b ∧ b.sum = a.sum + e ∧
        b.count = a.count + 1) ∧
      y.shockHold = h ∧
      (st.effective = .locked → h = 0 → y.y1 = filterStage (a16 g) e st.y1 ∧
        y.y2 = filterStage (a16 g) (filterStage (a16 g) e st.y1) st.y2) ∧
      (st.effective = .unlocked ∨ 0 < h → y.y1 = st.y1 ∧ y.y2 = st.y2) ∧
      CountsForLock s.settings.global st y := by
  intro st y g h e
  have hst := sameBut_periodTaken (readStamp s.now stamp) st
  obtain ⟨hf1, hf2⟩ := filter_periodTaken (readStamp s.now stamp) st
  obtain ⟨hm, hacc, hhold, hstep, hkeep, x, ⟨hxd, hxg⟩, hx⟩ :=
    sampled_of_record (T := readStamp s.now stamp) (ring := getRing (stationTarget k) s)
      (hst.pair.trans hp) hvalid hrec (account_periodTaken ha) s.settings.global g
  rw [hst.shockHold, hst.effective, hf1, hf2] at hstep
  rw [hst.shockHold, hst.effective, hf1, hf2] at hkeep
  rw [hst.shockHold] at hhold
  have hy : y = _ := getStation_closeSweep_of_taken hnow hlate ha ht
  rw [hy]
  refine ⟨hm, ⟨_, (account_clearPairing ..).trans hacc, rfl, rfl⟩, hhold, hstep, hkeep, ?_⟩
  rw [hx]
  exact countsForLock_countLock _ (hxd.trans hst.detected) (hxg.trans hst.goodRun)

/-- A valid sample whose record the ring does not hold, when the sweep is over. -/
theorem closeSweep_of_no_record (hnow : ¬ After (readStamp s.now stamp) s.now)
    (hlate : ¬ Before (readStamp s.now stamp) (firstSample (frameOf s.now - 1)))
    (ha : (getStation k s).account (frameOf (readStamp s.now stamp)) = some a)
    (ht : tget a.taken (periodOf (readStamp s.now stamp)) = false)
    (hp : (getStation k s).pair = some p) (hvalid : pairValid p = true)
    (hrec : ∀ r ∈ getRing (stationTarget k) s, r.frame ≠ frameOf (readStamp s.now stamp)) :
    let st := getStation k s
    let y := getStation k (closeSweep stamp s)
    y.lastM = scaledM (stationSettings k s) p ∧
      y.account (frameOf (readStamp s.now stamp)) =
        some (a.take (periodOf (readStamp s.now stamp))) ∧
      (y.y1 = st.y1 ∧ y.y2 = st.y2) ∧ CountsForLock s.settings.global st y := by
  intro st y
  have hst := sameBut_periodTaken (readStamp s.now stamp) st
  have hnone : matchFrame (frameOf (readStamp s.now stamp)) (getRing (stationTarget k) s) = none :=
    List.find?_eq_none.2 fun r hr hd => hrec r hr (of_decide_eq_true hd)
  have hy : y = _ := getStation_closeSweep_of_taken hnow hlate ha ht
  rw [sampled_of_no_record (hst.pair.trans hp) hvalid hnone] at hy
  generalize hw : valued s.settings.global.shockHold (stationSettings k s) p
    (periodTaken (readStamp s.now stamp) st) = w at hy
  have hwacc : w.account (frameOf (readStamp s.now stamp)) =
      some (a.take (periodOf (readStamp s.now stamp))) := by
    rw [← hw]
    exact (account_congr rfl rfl _).trans (account_periodTaken ha)
  obtain ⟨hm, -, h1, h2⟩ := countLock_true_keeps s.settings.global w
  obtain ⟨ho, hn⟩ := accounts_countLock_true s.settings.global w
  obtain ⟨hf1, hf2⟩ := filter_periodTaken (readStamp s.now stamp) st
  rw [hy]
  refine ⟨hm.trans (hw ▸ rfl), ?_, ⟨h1.trans ?_, h2.trans ?_⟩, countsForLock_countLock _ ?_ ?_⟩
  · rw [account_clearPairing, account_congr ho hn, hwacc]
  · rw [← hw, ← hf1]
    rfl
  · rw [← hw, ← hf2]
    rfl
  · rw [← hw, ← hst.detected]
    rfl
  · rw [← hw, ← hst.goodRun]
    rfl

/-- An invalid sample, when the sweep is over: a miss of the station with its last M. -/
theorem closeSweep_of_invalid (hnow : ¬ After (readStamp s.now stamp) s.now)
    (hlate : ¬ Before (readStamp s.now stamp) (firstSample (frameOf s.now - 1)))
    (ha : (getStation k s).account (frameOf (readStamp s.now stamp)) = some a)
    (ht : tget a.taken (periodOf (readStamp s.now stamp)) = false)
    (hinvalid : ∀ p, (getStation k s).pair = some p → pairValid p = false) :
    ∃ w : StationState, getStation k (closeSweep stamp s) = (missed s.settings.global w).clearPairing ∧
      w.lastM = ((getStation k s).pair.map (scaledM (stationSettings k s))).getD
        (getStation k s).lastM ∧
      (w.detected = (getStation k s).detected ∧ w.badRun = (getStation k s).badRun ∧
        w.force = (getStation k s).force) ∧
      (w.y1 = (getStation k s).y1 ∧ w.y2 = (getStation k s).y2) ∧
      w.account (frameOf (readStamp s.now stamp)) =
        some (a.take (periodOf (readStamp s.now stamp))) := by
  have hst := sameBut_periodTaken (readStamp s.now stamp) (getStation k s)
  have hfilter := filter_periodTaken (readStamp s.now stamp) (getStation k s)
  obtain ⟨hold, hsampled⟩ := sampled_of_invalid (st := periodTaken (readStamp s.now stamp)
    (getStation k s)) (by rw [hst.pair]; exact hinvalid) s.settings.global (stationSettings k s)
    (getRing (stationTarget k) s) (readStamp s.now stamp)
  refine ⟨_, (getStation_closeSweep_of_taken hnow hlate ha ht).trans
    (congrArg StationState.clearPairing hsampled), ?_, ⟨hst.detected, hst.badRun, hst.force⟩,
    hfilter, (account_congr rfl rfl _).trans (account_periodTaken ha)⟩
  rw [hst.pair, hst.lastM]
  rfl

theorem missed_at_unlock (h : st.detected = .locked) (hn : glob.stationUnlock ≤ st.badRun + 1) :
    (missed glob st).detected = .unlocked ∧ (missed glob st).goodRun = 0 ∧
      (missed glob st).badRun = 0 := by
  cases hf : st.force with
  | none =>
    rw [missed_of_unlock h hn hf]
    exact ⟨rfl, rfl, rfl⟩
  | some l =>
    rw [missed_of_forced h hn hf]
    exact ⟨rfl, rfl, rfl⟩

/-! ### The statement -/

theorem pairValid_eq_false (h : 32000 ≤ m.natAbs ∨ 32000 ≤ n.natAbs) : pairValid (m, n) = false := by
  rw [← Bool.not_eq_true, pairValid_iff]
  omega

/-- The scaled value by the sense of the station (R124). -/
theorem scaledM_of_sense {g : StationSettings} {v : Int}
    (hnormal : g.sense = .normal → v = measured m - measured n)
    (hreversed : g.sense = .reversed → v = measured n - measured m) : scaledM g (m, n) =
      max (-32767) (min 32767 ((max (-32767) (min 32767 v) * g.scale + 8192).fdiv 16384)) := by
  have hrot : rotational g.sense (m, n) = max (-32767) (min 32767 v) := by
    cases hsense : g.sense with
    | normal => rw [rotational_normal, hnormal hsense]
    | reversed => rw [rotational_reversed, hreversed hsense]
  rw [scaledM_eq, hrot]

/-- The same of a valid pair. -/
theorem scaledM_of_valid {g : StationSettings} {v : Int} (hm : m.natAbs < 32000)
    (hn : n.natAbs < 32000) (hnormal : g.sense = .normal → v = m - n)
    (hreversed : g.sense = .reversed → v = n - m) : scaledM g (m, n) =
      max (-32767) (min 32767 ((max (-32767) (min 32767 v) * g.scale + 8192).fdiv 16384)) :=
  scaledM_of_sense
    (fun h => by rw [measured_of_small hm, measured_of_small hn]; exact hnormal h)
    (fun h => by rw [measured_of_small hm, measured_of_small hn]; exact hreversed h)

/-- Settles O52: by the kind of the sample. -/
theorem samplesFormResidualsOrShocks : Obligations.SamplesFormResidualsOrShocks := by
  unfold Obligations.SamplesFormResidualsOrShocks
  refine ⟨?_, ?_, ?_, ?_, ?_⟩
  · intro s stamp k x y a record hs hb time hnow hlate hp hx hy ha ht hrec g clip16 hquiet rot scaled
      res c y1 y2
    have hscaled : scaledM g (x, y) = scaled :=
      scaledM_of_valid hx hy (fun h => by simp only [h]) (fun h => by simp only [h])
    have hres : residual (scaledM g (x, y)) (tget record.sums (periodOf time)) = res := by
      rw [hscaled]
      exact valueClip_eq _
    have hnoshock : ¬ isShock g (x, y) = true := by
      rw [isShock_of_valid hx hy]
      exact not_le_of_gt hquiet
    obtain ⟨hm, hacc, hhold, hstep, hkeep, hlock⟩ :=
      closeSweep_of_record hnow hlate ha ht hp (pairValid_iff.2 ⟨hx, hy⟩) hrec
    rw [hres] at hacc hstep
    rw [if_neg hnoshock] at hhold hstep hkeep
    rw [filterStage_eq, filterStage_eq] at hstep
    exact ⟨closeSweep stamp s, exec_sweepEnd hs hb stamp, hm.trans hscaled, hacc, hhold, hstep, hkeep,
      hlock⟩
  · intro s stamp k x y a hs hb time hnow hlate hp ha ht hloud
    have hshock : isShock (stationSettings k s) (x, y) = true := by
      rcases hloud with ⟨hx, hy, h⟩ | h
      · exact isShock_of_magnitude hx hy h
      · exact isShock_of_overrange h
    refine ⟨closeSweep stamp s, exec_sweepEnd hs hb stamp, ?_, fun slot hx =>
      shock_closeSweep hnow hlate ha ht hp hshock hx⟩
    rw [getStation_closeSweep_of_taken hnow hlate ha ht]
    exact shockHold_sampled_of_shock ((sameBut_periodTaken ..).pair.trans hp) hshock ..
  · intro s stamp k x y a record hs hb hH time hnow hlate hp hx hy hloud ha ht hrec clip16 rot scaled
    have hscaled : scaledM (stationSettings k s) (x, y) = scaled :=
      scaledM_of_valid hx hy (fun h => by simp only [h]) (fun h => by simp only [h])
    have hres : residual (scaledM (stationSettings k s) (x, y)) (tget record.sums (periodOf time)) =
        clip16 (scaled - tget record.sums (periodOf time)) := by
      rw [hscaled]
      exact valueClip_eq _
    have hshock := isShock_of_magnitude hx hy hloud
    obtain ⟨hm, hacc, -, -, hkeep, -⟩ :=
      closeSweep_of_record hnow hlate ha ht hp (pairValid_iff.2 ⟨hx, hy⟩) hrec
    rw [hres] at hacc
    rw [if_pos hshock] at hkeep
    exact ⟨closeSweep stamp s, exec_sweepEnd hs hb stamp, hm.trans hscaled, hacc, hkeep (.inr hH)⟩
  · intro s stamp k x y a hs hb time hnow hlate hp hx hy ha ht hrec clip16 rot lock
    obtain ⟨hm, hacc, ⟨h1, h2⟩, hlock⟩ :=
      closeSweep_of_no_record hnow hlate ha ht hp (pairValid_iff.2 ⟨hx, hy⟩) hrec
    exact ⟨closeSweep stamp s, exec_sweepEnd hs hb stamp, hm.trans (scaledM_of_valid hx hy
      (fun h => by simp only [h]) (fun h => by simp only [h])), hacc, h1, h2, hlock⟩
  · intro s stamp k a hs hb time hnow hlate hcode ha ht unlock clip16 value
    have hinvalid : ∀ p, (getStation k s).pair = some p → pairValid p = false :=
      fun p hp => pairValid_eq_false (hcode p.1 p.2 hp)
    obtain ⟨w, hy, hm, ⟨hd, hbad, hforce⟩, ⟨h1, h2⟩, hacc⟩ :=
      closeSweep_of_invalid hnow hlate ha ht hinvalid
    refine ⟨closeSweep stamp s, exec_sweepEnd hs hb stamp, ?_, fun h => ?_, fun h hn => ?_,
      fun h => ?_, fun h hn => ?_⟩
    · rw [hy]
      refine ((missKeeps_missed s.settings.global w).lastM.trans hm).trans ?_
      cases hp : (getStation k s).pair with
      | none => rfl
      | some p =>
        exact scaledM_of_sense (fun h => by simp only [h, value, measured_eq])
          (fun h => by simp only [h, value, measured_eq])
    · rw [hy, missed_of_unlocked (hd.trans h)]
      exact ⟨hd.trans h, rfl⟩
    · rw [hy, missed_of_bad (hd.trans h) (hbad ▸ hn)]
      exact ⟨hd.trans h, congrArg (· + 1) hbad⟩
    · have hkeeps : ∃ good bad, missed s.settings.global w =
          { w with goodRun := good, badRun := bad } := by
        rcases lock_cases w.detected with hl | hl
        · exact ⟨0, w.badRun, missed_of_unlocked hl⟩
        · have hn := h.resolve_left fun hu => absurd ((hl.symm.trans hd).trans hu) nofun
          exact ⟨w.goodRun, w.badRun + 1, missed_of_bad hl (hbad ▸ hn)⟩
      obtain ⟨good, bad, hw⟩ := hkeeps
      rw [hy, hw]
      exact ⟨h1, h2, _, (account_congr rfl rfl _).trans hacc, rfl, rfl⟩
    · have hwd := hd.trans h
      have hwn : s.settings.global.stationUnlock ≤ w.badRun + 1 := hbad ▸ hn
      rw [hy]
      obtain ⟨hdet, hgood, hzero⟩ := missed_at_unlock hwd hwn
      refine ⟨hdet, hgood, hzero, fun hf => ?_⟩
      rw [missed_of_unlock hwd hwn (hforce.trans hf)]
      have hcleared := account_unlock (st := { w with detected := .unlocked, goodRun := 0, badRun := 0 })
        ((account_congr rfl rfl _).trans hacc)
      exact ⟨rfl, rfl, ⟨_, hcleared, rfl, rfl⟩,
        latched_closeSweep_of_unlock hnow hlate ha ht hinvalid h hn hf⟩

end

end Sys2Proof.Machine
end

section
/-! PROOF. The queue of commands that wait: the operations of the state, the management port, the
Source Table, the Profile Cache and the Coupling Store neither read nor change it. -/

namespace Sys2Proof.Machine

open Sys2Proof

@[simp] theorem withQueue_pending (s : State) (q : List Instr) : (s.withQueue q).pending = q := rfl

theorem withQueue_ite (c : Prop) [Decidable c] (s t : State) (q : List Instr) :
    (if c then s else t).withQueue q = if c then s.withQueue q else t.withQueue q :=
  apply_ite (fun x : State => x.withQueue q) c s t

/-- What a function does neither reads nor changes the queue. -/
def KeepsQueue (f : State → State) : Prop :=
  ∀ (s : State) (q : List Instr), f (s.withQueue q) = (f s).withQueue q

theorem foldl_withQueue {α : Type} {f : State → α → State}
    (h : ∀ a, KeepsQueue fun s => f s a) (l : List α) (s : State) (q : List Instr) :
    l.foldl f (s.withQueue q) = (l.foldl f s).withQueue q := by
  induction l generalizing s with
  | nil => rfl
  | cons a l ih => exact (congrArg (List.foldl f · l) (h a s q)).trans (ih _)

theorem KeepsQueue.comp {f g : State → State} (hf : KeepsQueue f) (hg : KeepsQueue g) :
    KeepsQueue fun s => f (g s) := fun s q => by
  dsimp only
  rw [hg, hf]

/-- The queue of a state that comes with an answer. -/
def withQueueAnswer (q : List Instr) (x : Reply × State) : Reply × State := (x.1, x.2.withQueue q)

/-! ### The flags -/

@[simp] theorem latch_withQueue (f : Flag) (s : State) (q : List Instr) :
    latch f (s.withQueue q) = (latch f s).withQueue q := rfl

/-! ### The operations of the state -/

@[simp] theorem setRecord_withQueue (r : RecordNo) (v : SourceRecord) (s : State) (q : List Instr) :
    setRecord r v (s.withQueue q) = (setRecord r v s).withQueue q := rfl

@[simp] theorem modLive_withQueue (slot : Slot) (f : Nat → Nat) (s : State) (q : List Instr) :
    modLive slot f (s.withQueue q) = (modLive slot f s).withQueue q := rfl

@[simp] theorem liveOfSlot_withQueue (slot : Slot) (s : State) (q : List Instr) :
    liveOfSlot slot (s.withQueue q) = liveOfSlot slot s := rfl

@[simp] theorem liveNaming_withQueue (id : ProfileId) (s : State) (q : List Instr) :
    liveNaming id (s.withQueue q) = liveNaming id s := rfl

@[simp] theorem modCount_withQueue (id : ProfileId) (f : Nat → Nat) (s : State) (q : List Instr) :
    modCount id f (s.withQueue q) = (modCount id f s).withQueue q := rfl

@[simp] theorem modAdapt_withQueue (t : Target) (f : AdaptRecord → AdaptRecord) (s : State)
    (q : List Instr) :
    modAdapt t f (s.withQueue q) = (modAdapt t f s).withQueue q := rfl

@[simp] theorem modStation_withQueue (k : Station) (f : StationState → StationState) (s : State)
    (q : List Instr) :
    modStation k f (s.withQueue q) = (modStation k f s).withQueue q := rfl

@[simp] theorem modSuppression_withQueue (slot : Slot)
    (f : SuppressionRecord → SuppressionRecord) (s : State) (q : List Instr) :
    modSuppression slot f (s.withQueue q) = (modSuppression slot f s).withQueue q := rfl

@[simp] theorem modLink_withQueue (slot : Slot) (f : LinkSlot → LinkSlot) (s : State)
    (q : List Instr) :
    modLink slot f (s.withQueue q) = (modLink slot f s).withQueue q := rfl

@[simp] theorem setRing_withQueue (t : Target) (l : List EvalRecord) (s : State) (q : List Instr) :
    setRing t l (s.withQueue q) = (setRing t l s).withQueue q := rfl

@[simp] theorem setEvaluations_withQueue (l : List Evaluation) (s : State) (q : List Instr) :
    setEvaluations l (s.withQueue q) = (setEvaluations l s).withQueue q := rfl

@[simp] theorem setSteps_withQueue (begun : List Step) (rest : List Step) (s : State)
    (q : List Instr) :
    setSteps begun rest (s.withQueue q) = (setSteps begun rest s).withQueue q := rfl

@[simp] theorem setGaps_withQueue (prediction : Bool) (adaptation : Bool) (s : State)
    (q : List Instr) :
    setGaps prediction adaptation (s.withQueue q) =
      (setGaps prediction adaptation s).withQueue q := rfl

@[simp] theorem retire_withQueue (r : RecordNo) (s : State) (q : List Instr) :
    retire r (s.withQueue q) = (retire r s).withQueue q := by
  simp [retire]

@[simp] theorem purgeSlot_withQueue (slot : Slot) (s : State) (q : List Instr) :
    purgeSlot slot (s.withQueue q) = (purgeSlot slot s).withQueue q := by
  rw [purgeSlot, liveOfSlot_withQueue, foldl_withQueue retire_withQueue, purgeSlot]

@[simp] theorem startSettle_withQueue (t : Target) (s : State) (q : List Instr) :
    startSettle t (s.withQueue q) = (startSettle t s).withQueue q := by
  simp [startSettle]

@[simp] theorem settleRecord_withQueue (r : RecordNo) (s : State) (q : List Instr) :
    settleRecord r (s.withQueue q) = (settleRecord r s).withQueue q := by
  cases h : (getRecord r s).stateAt s.now <;> simp [settleRecord, h]

@[simp] theorem takeRecordEvents_withQueue (s : State) (q : List Instr) :
    takeRecordEvents (s.withQueue q) = (takeRecordEvents s).withQueue q := by
  rw [takeRecordEvents, foldl_withQueue fun r s q => by simp [withQueue_ite], takeRecordEvents]

@[simp] theorem residentSlot_withQueue (id : ProfileId) (s : State) (q : List Instr) :
    residentSlot id (s.withQueue q) = residentSlot id s := rfl

@[simp] theorem fetchTarget_withQueue (s : State) (q : List Instr) :
    fetchTarget (s.withQueue q) = fetchTarget s := rfl

@[simp] theorem fetchStart_withQueue (s : State) (q : List Instr) :
    fetchStart (s.withQueue q) = (fetchStart s).withQueue q := by
  unfold fetchStart
  rw [fetchTarget_withQueue, withQueue_cache]
  split <;> rfl

@[simp] theorem takeMoment_withQueue (s : State) (q : List Instr) :
    takeMoment (s.withQueue q) = (takeMoment s).withQueue q := by
  simp [takeMoment]

@[simp] theorem startYields_withQueue (id : ProfileId) (s : State) (q : List Instr) :
    startYields id (s.withQueue q) = startYields id s := rfl

@[simp] theorem takeMomentFor_withQueue (id : ProfileId) (s : State) (q : List Instr) :
    takeMomentFor id (s.withQueue q) = (takeMomentFor id s).withQueue q := by
  simp [takeMomentFor, withQueue_ite]

@[simp] theorem dropEvaluation_withQueue (t : Target) (s : State) (q : List Instr) :
    dropEvaluation t (s.withQueue q) = (dropEvaluation t s).withQueue q := by
  simp [dropEvaluation]

@[simp] theorem enterAbsent_withQueue (slot : Slot) (s : State) (q : List Instr) :
    enterAbsent slot (s.withQueue q) = (enterAbsent slot s).withQueue q := by
  simp [enterAbsent]

@[simp] theorem enterPresent_withQueue (slot : Slot) (s : State) (q : List Instr) :
    enterPresent slot (s.withQueue q) = (enterPresent slot s).withQueue q := by
  simp [enterPresent]

@[simp] theorem changePresence_withQueue (slot : Slot) (f : LinkSlot → LinkSlot) (s : State)
    (q : List Instr) :
    changePresence slot f (s.withQueue q) = (changePresence slot f s).withQueue q := by
  cases h : (getLink slot (modLink slot f s)).effective <;>
    simp [changePresence, h, withQueue_ite]

@[simp] theorem changeLock_withQueue (k : Station) (f : StationState → StationState) (s : State)
    (q : List Instr) :
    changeLock k f (s.withQueue q) = (changeLock k f s).withQueue q := by
  cases h : (getStation k (modStation k f s)).effective <;>
    simp [changeLock, h, withQueue_ite]

@[simp] theorem trigger_withQueue (slot : Slot) (s : State) (q : List Instr) :
    trigger slot (s.withQueue q) = (trigger slot s).withQueue q := by
  simp [trigger]

@[simp] theorem endColdReset_withQueue (s : State) (q : List Instr) :
    endColdReset (s.withQueue q) = (endColdReset s).withQueue q := rfl

@[simp] theorem respond_withQueue (r : Response) (s : State) (q : List Instr) :
    respond r (s.withQueue q) = (respond r s).withQueue q := rfl

@[simp] theorem frameRefused_withQueue (s : State) (q : List Instr) :
    frameRefused (s.withQueue q) = frameRefused s := rfl

@[simp] theorem endTransaction_withQueue (s : State) (q : List Instr) :
    endTransaction (s.withQueue q) = (endTransaction s).withQueue q := rfl

theorem takeFrame_withQueue {α : Type} {f : α → State → State} (hf : ∀ a, KeepsQueue (f a))
    (p : Payload α) : KeepsQueue (takeFrame p f) := by
  intro s q
  unfold takeFrame
  rw [frameRefused_withQueue, endTransaction_withQueue, withQueue_ite]
  cases p with
  | wrongLength => rfl
  | fields a => exact congrArg (ite _ _) (hf a _ q)

@[simp] theorem execute_withQueue (e : Executing) (s : State) (q : List Instr) :
    execute e (s.withQueue q) = (execute e s).withQueue q := rfl

@[simp] theorem finish_withQueue (r : Response) (s : State) (q : List Instr) :
    finish r (s.withQueue q) = (finish r s).withQueue q := rfl

@[simp] theorem hasReads_withQueue (s : State) (q : List Instr) :
    hasReads (s.withQueue q) = hasReads s := rfl

@[simp] theorem predictionWaits_withQueue (s : State) (q : List Instr) :
    predictionWaits (s.withQueue q) = predictionWaits s := rfl

@[simp] theorem portMayBeGranted_withQueue (s : State) (q : List Instr) :
    portMayBeGranted (s.withQueue q) = portMayBeGranted s := rfl

@[simp] theorem portAccess_withQueue (s : State) (q : List Instr) :
    portAccess (s.withQueue q) = (portAccess s).withQueue q := by
  simp [portAccess]

@[simp] theorem setStore_withQueue (c : CouplingStore) (s : State) (q : List Instr) :
    setStore c (s.withQueue q) = (setStore c s).withQueue q := rfl

/-! ### The management port -/

@[simp] theorem transactionStart_withQueue (s : State) (q : List Instr) :
    transactionStart (s.withQueue q) = (transactionStart s).withQueue q := rfl

@[simp] theorem untakenStart_withQueue (s : State) (q : List Instr) :
    untakenStart (s.withQueue q) = (untakenStart s).withQueue q := rfl

@[simp] theorem unknownCommand_withQueue (code : Byte) (s : State) (q : List Instr) :
    unknownCommand code (s.withQueue q) = (unknownCommand code s).withQueue q := by
  cases h : frameRefused s <;> simp [unknownCommand, h, withQueue_ite]

@[simp] theorem readFlags_withQueue (s : State) (q : List Instr) :
    readFlags (s.withQueue q) = (readFlags s).withQueue q := rfl

@[simp] theorem setAlertMask_withQueue (h : Half) (s : State) (q : List Instr) :
    setAlertMask h (s.withQueue q) = (setAlertMask h s).withQueue q := rfl

@[simp] theorem storeSettings_withQueue (site : SettingSite) (g : Settings) (s : State)
    (q : List Instr) :
    storeSettings site g (s.withQueue q) = (storeSettings site g s).withQueue q := rfl

@[simp] theorem settingWrite_withQueue (a : SettingAddr × SettingValue) (s : State)
    (q : List Instr) :
    settingWrite a (s.withQueue q) = (settingWrite a s).withQueue q := by
  cases h : settingSite a.1 with
  | none => simp [settingWrite, h]
  | some site => cases hw : s.settings.write site a.2 <;> simp [settingWrite, h, hw]

@[simp] theorem settingRead_withQueue (a : SettingAddr) (s : State) (q : List Instr) :
    settingRead a (s.withQueue q) = (settingRead a s).withQueue q := by
  cases h : settingSite a <;> simp [settingRead, h]

/-! ### The Source Table -/

@[simp] theorem recordStart_withQueue (r : RecordNo) (s : State) (q : List Instr) :
    recordStart r (s.withQueue q) = (recordStart r s).withQueue q := by
  simp [recordStart, withQueue_ite]

@[simp] theorem recordEnd_withQueue (r : RecordNo) (s : State) (q : List Instr) :
    recordEnd r (s.withQueue q) = (recordEnd r s).withQueue q := by
  simp [recordEnd, withQueue_ite]

@[simp] theorem recordRetirement_withQueue (r : RecordNo) (s : State) (q : List Instr) :
    recordRetirement r (s.withQueue q) = (recordRetirement r s).withQueue q := by
  simp [recordRetirement, withQueue_ite]

@[simp] theorem inFlight_withQueue (id : ProfileId) (s : State) (q : List Instr) :
    inFlight id (s.withQueue q) = inFlight id s := rfl

@[simp] theorem unusable_withQueue (id : ProfileId) (s : State) (q : List Instr) :
    unusable id (s.withQueue q) = unusable id s := rfl

@[simp] theorem absentProfile_withQueue (id : ProfileId) (s : State) (q : List Instr) :
    absentProfile id (s.withQueue q) = absentProfile id s := rfl

@[simp] theorem queueFull_withQueue (s : State) (q : List Instr) :
    queueFull (s.withQueue q) = queueFull s := rfl

@[simp] theorem enqueue_withQueue (id : ProfileId) (s : State) (q : List Instr) :
    enqueue id (s.withQueue q) = (enqueue id s).withQueue q := rfl

@[simp] theorem touch_withQueue (c : CacheNo) (s : State) (q : List Instr) :
    touch c (s.withQueue q) = (touch c s).withQueue q := rfl

@[simp] theorem findTag_withQueue (slot : Slot) (tag : Tag) (s : State) (q : List Instr) :
    findTag slot tag (s.withQueue q) = findTag slot tag s := rfl

@[simp] theorem noticeRefusal_withQueue (slot : Slot) (m : NoticeFields) (s : State)
    (q : List Instr) :
    noticeRefusal slot m (s.withQueue q) = noticeRefusal slot m s := rfl

@[simp] theorem latchLate_withQueue (start : Time) (s : State) (q : List Instr) :
    latchLate start (s.withQueue q) = (latchLate start s).withQueue q := by
  simp [latchLate, withQueue_ite]

@[simp] theorem noticeRecord_withQueue (slot : Slot) (m : NoticeFields) (s : State)
    (q : List Instr) :
    noticeRecord slot m (s.withQueue q) = noticeRecord slot m s := rfl

@[simp] theorem noticeProfile_withQueue (id : ProfileId) (s : State) (q : List Instr) :
    noticeProfile id (s.withQueue q) = (noticeProfile id s).withQueue q := by
  cases h : residentSlot id s <;> cases ha : absentProfile id s <;> simp [noticeProfile, h, ha]

@[simp] theorem noticeInto_withQueue (r : RecordNo) (slot : Slot) (m : NoticeFields) (s : State)
    (q : List Instr) :
    noticeInto r slot m (s.withQueue q) = (noticeInto r slot m s).withQueue q := by
  simp [noticeInto]

@[simp] theorem noticePresent_withQueue (slot : Slot) (m : NoticeFields) (s : State)
    (q : List Instr) :
    noticePresent slot m (s.withQueue q) = withQueueAnswer q (noticePresent slot m s) := by
  unfold noticePresent
  rw [noticeRefusal_withQueue, withQueue_table]
  cases noticeRefusal slot m s with
  | some reply => rfl
  | none =>
    cases firstWhere s.table.records fun v => !isLive v with
    | none => rfl
    | some r => simp [withQueueAnswer]

theorem answerIfPresent_withQueue {f : State → Reply × State}
    (hf : ∀ s q, f (s.withQueue q) = withQueueAnswer q (f s)) (slot : Slot) (s : State)
    (q : List Instr) :
    answerIfPresent slot f (s.withQueue q) = withQueueAnswer q (answerIfPresent slot f s) := by
  rw [answerIfPresent, getLink_withQueue, answerIfPresent]
  cases (getLink slot s).effective with
  | absent => rfl
  | present => exact hf s q

@[simp] theorem amendRecord_withQueue (m : AmendFields) (v : SourceRecord) (s : State)
    (q : List Instr) :
    amendRecord m (s.withQueue q) v = amendRecord m s v := rfl

@[simp] theorem amendRefusal_withQueue (m : AmendFields) (v : SourceRecord) (s : State)
    (q : List Instr) :
    amendRefusal m (s.withQueue q) v = amendRefusal m s v := rfl

@[simp] theorem amendInto_withQueue (r : RecordNo) (m : AmendFields) (s : State) (q : List Instr) :
    amendInto r m (s.withQueue q) = withQueueAnswer q (amendInto r m s) := by
  simp [amendInto, withQueueAnswer]

@[simp] theorem amendPresent_withQueue (slot : Slot) (m : AmendFields) (s : State)
    (q : List Instr) :
    amendPresent slot m (s.withQueue q) = withQueueAnswer q (amendPresent slot m s) := by
  unfold amendPresent
  rw [findTag_withQueue]
  cases findTag slot m.tag s with
  | none => rfl
  | some r =>
    simp only [getRecord_withQueue, amendRefusal_withQueue, amendInto_withQueue]
    cases (getRecord r s).state <;> try rfl
    cases amendRefusal m s (getRecord r s) <;> rfl

@[simp] theorem withdrawPresent_withQueue (slot : Slot) (tag : Tag) (s : State) (q : List Instr) :
    withdrawPresent slot tag (s.withQueue q) = withQueueAnswer q (withdrawPresent slot tag s) := by
  unfold withdrawPresent
  rw [findTag_withQueue]
  cases findTag slot tag s with
  | none => rfl
  | some r =>
    simp only [getRecord_withQueue, withQueue_now, retire_withQueue, setRecord_withQueue,
      settleRecord_withQueue]
    cases (getRecord r s).state <;> rfl

@[simp] theorem closePresent_withQueue (slot : Slot) (tag : Tag) (stamp : Half) (s : State)
    (q : List Instr) :
    closePresent slot tag stamp (s.withQueue q) =
      withQueueAnswer q (closePresent slot tag stamp s) := by
  unfold closePresent
  rw [findTag_withQueue]
  cases findTag slot tag s with
  | none => rfl
  | some r =>
    simp only [getRecord_withQueue, withQueue_now, setRecord_withQueue, settleRecord_withQueue]
    cases (getRecord r s).state <;> rfl

@[simp] theorem fixRecord_withQueue (id : ProfileId) (profileLength : Nat) (r : RecordNo)
    (s : State) (q : List Instr) :
    fixRecord id profileLength (s.withQueue q) r =
      (fixRecord id profileLength s r).withQueue q := by
  simp [fixRecord, withQueue_ite]

@[simp] theorem fixRecords_withQueue (id : ProfileId) (profileLength : Nat) (s : State)
    (q : List Instr) :
    fixRecords id profileLength (s.withQueue q) = (fixRecords id profileLength s).withQueue q := by
  rw [fixRecords, foldl_withQueue fun r s q => fixRecord_withQueue id profileLength r s q,
    fixRecords]

@[simp] theorem sourceQueryResponse_withQueue (a : SourceQueryArgs) (s : State) (q : List Instr) :
    sourceQueryResponse a (s.withQueue q) = sourceQueryResponse a s := rfl

@[simp] theorem sourceList_withQueue (a : SourceListArgs) (s : State) (q : List Instr) :
    sourceList a (s.withQueue q) = (sourceList a s).withQueue q := by
  unfold sourceList
  split <;> rfl

@[simp] theorem sourceListResponse_withQueue (first : RecordNo) (slot : Option Slot) (s : State)
    (q : List Instr) :
    sourceListResponse first slot (s.withQueue q) = sourceListResponse first slot s := rfl

@[simp] theorem sourceListGrant_withQueue (s : State) (q : List Instr) :
    sourceListGrant (s.withQueue q) = (sourceListGrant s).withQueue q := by
  unfold sourceListGrant
  rw [withQueue_port]
  split <;> simp [withQueue_ite]

/-! ### The Profile Cache -/

@[simp] theorem enterLent_withQueue (s : State) (q : List Instr) :
    enterLent (s.withQueue q) = (enterLent s).withQueue q := rfl

@[simp] theorem lendAtCompletion_withQueue (s : State) (q : List Instr) :
    lendAtCompletion (s.withQueue q) = (lendAtCompletion s).withQueue q := by
  cases h : s.cache.port <;> simp [lendAtCompletion, h]

@[simp] theorem fillSlot_withQueue (f : Flight) (page : List Int) (s : State) (q : List Instr) :
    fillSlot f page (s.withQueue q) = (fillSlot f page s).withQueue q := rfl

@[simp] theorem completeGood_withQueue (f : Flight) (page : List Int) (s : State) (q : List Instr) :
    completeGood f page (s.withQueue q) = (completeGood f page s).withQueue q := by
  simp [completeGood]

@[simp] theorem fetchCompleteGood_withQueue (page : List Half) (s : State) (q : List Instr) :
    fetchCompleteGood page (s.withQueue q) = (fetchCompleteGood page s).withQueue q := by
  cases h : s.cache.flight <;> simp [fetchCompleteGood, h, withQueue_ite]

@[simp] theorem completeBad_withQueue (f : Flight) (s : State) (q : List Instr) :
    completeBad f (s.withQueue q) = (completeBad f s).withQueue q := by
  unfold completeBad
  rw [← lendAtCompletion_withQueue, ← latch_withQueue]
  rfl

@[simp] theorem fetchCompleteBad_withQueue (s : State) (q : List Instr) :
    fetchCompleteBad (s.withQueue q) = (fetchCompleteBad s).withQueue q := by
  cases h : s.cache.flight <;> simp [fetchCompleteBad, h]

theorem withProfile_withQueue {f : ProfileId → State → State} (hf : ∀ id, KeepsQueue (f id))
    (h : Half) : KeepsQueue (withProfile h f) := by
  intro s q
  unfold withProfile
  cases profileOf h with
  | some id => exact hf id s q
  | none => rfl

@[simp] theorem preloadId_withQueue (id : ProfileId) (s : State) (q : List Instr) :
    preloadId id (s.withQueue q) = (preloadId id s).withQueue q := by
  unfold preloadId
  rw [unusable_withQueue, absentProfile_withQueue, queueFull_withQueue]
  simp [withQueue_ite]

@[simp] theorem makeUsable_withQueue (id : ProfileId) (s : State) (q : List Instr) :
    makeUsable id (s.withQueue q) = (makeUsable id s).withQueue q := rfl

@[simp] theorem retryId_withQueue (id : ProfileId) (s : State) (q : List Instr) :
    retryId id (s.withQueue q) = (retryId id s).withQueue q := by
  unfold retryId
  rw [unusable_withQueue, liveNaming_withQueue, queueFull_withQueue]
  simp [withQueue_ite]

@[simp] theorem dropId_withQueue (id : ProfileId) (s : State) (q : List Instr) :
    dropId id (s.withQueue q) = (dropId id s).withQueue q := by
  unfold dropId
  rw [inFlight_withQueue, residentSlot_withQueue, withQueue_cache, withQueue_ite]
  cases residentSlot id s with
  | none => rfl
  | some c =>
    dsimp only
    rw [withQueue_ite]
    rfl

@[simp] theorem beforeDrop_withQueue (p : Payload Half) (s : State) (q : List Instr) :
    beforeDrop p (s.withQueue q) = (beforeDrop p s).withQueue q := by
  cases p with
  | wrongLength => exact takeMoment_withQueue ..
  | fields h => cases hid : profileOf h <;> simp [beforeDrop, hid]

@[simp] theorem lendPort_withQueue (s : State) (q : List Instr) :
    lendPort (s.withQueue q) = (lendPort s).withQueue q := by
  unfold lendPort
  rw [withQueue_cache]
  cases s.cache.port <;> cases s.cache.flight <;> rfl

@[simp] theorem reclaimPort_withQueue (s : State) (q : List Instr) :
    reclaimPort (s.withQueue q) = (reclaimPort s).withQueue q := by
  unfold reclaimPort
  rw [withQueue_cache]
  cases s.cache.port <;> rfl

/-! ### The Coupling Store -/

@[simp] theorem listWrite_withQueue (a : ListWriteArgs) (s : State) (q : List Instr) :
    listWrite a (s.withQueue q) = (listWrite a s).withQueue q := by
  unfold listWrite
  cases slotOf a.source with
  | none => rfl
  | some source =>
    dsimp only
    rw [withQueue_store, withQueue_ite]
    cases validateList source a.entries <;> simp [withQueue_ite]

@[simp] theorem writeStaging_withQueue (source : Slot) (l : List Entry) (s : State)
    (q : List Instr) :
    writeStaging source l (s.withQueue q) = (writeStaging source l s).withQueue q := by
  simp [writeStaging]

@[simp] theorem listWriteGrant_withQueue (s : State) (q : List Instr) :
    listWriteGrant (s.withQueue q) = (listWriteGrant s).withQueue q := by
  unfold listWriteGrant
  rw [withQueue_port]
  split <;> simp [withQueue_ite]

@[simp] theorem listRead_withQueue (a : ListReadArgs) (s : State) (q : List Instr) :
    listRead a (s.withQueue q) = (listRead a s).withQueue q := by
  unfold listRead
  split <;> rfl

@[simp] theorem listReadResponse_withQueue (bank : BankName) (source : Slot) (s : State)
    (q : List Instr) :
    listReadResponse bank source (s.withQueue q) = listReadResponse bank source s := rfl

@[simp] theorem listReadGrant_withQueue (s : State) (q : List Instr) :
    listReadGrant (s.withQueue q) = (listReadGrant s).withQueue q := by
  unfold listReadGrant
  rw [withQueue_port]
  split <;> simp [withQueue_ite]

@[simp] theorem capture_withQueue (s : State) (q : List Instr) :
    capture (s.withQueue q) = (capture s).withQueue q := by
  unfold capture
  rw [withQueue_store]
  simp [withQueue_ite]

@[simp] theorem captureEmptyGrant_withQueue (s : State) (q : List Instr) :
    captureEmptyGrant (s.withQueue q) = (captureEmptyGrant s).withQueue q := by
  unfold captureEmptyGrant
  rw [withQueue_port]
  split <;> simp [withQueue_ite]

@[simp] theorem copyList_withQueue (source : Slot) (s : State) (q : List Instr) :
    copyList source (s.withQueue q) = (copyList source s).withQueue q := by
  simp [copyList]

@[simp] theorem capturedResponse_withQueue (s : State) (q : List Instr) :
    capturedResponse (s.withQueue q) = capturedResponse s := rfl

@[simp] theorem captureCopyGrant_withQueue (s : State) (q : List Instr) :
    captureCopyGrant (s.withQueue q) = (captureCopyGrant s).withQueue q := by
  unfold captureCopyGrant
  rw [withQueue_port, portMayBeGranted_withQueue]
  split
  · split
    · split <;> simp [*]
    · rfl
  · rfl

@[simp] theorem setSwapPending_withQueue (b : Bool) (s : State) (q : List Instr) :
    setSwapPending b (s.withQueue q) = (setSwapPending b s).withQueue q := by
  simp [setSwapPending]

@[simp] theorem swapRequest_withQueue (s : State) (q : List Instr) :
    swapRequest (s.withQueue q) = (swapRequest s).withQueue q := by
  simp [swapRequest, withQueue_ite]

@[simp] theorem swapCancel_withQueue (s : State) (q : List Instr) :
    swapCancel (s.withQueue q) = (swapCancel s).withQueue q := by
  simp [swapCancel, withQueue_ite]

end Sys2Proof.Machine
end

section
/-! PROOF. The queue of commands that wait: prediction, adaptation, the stations, suppression, the
timebase, the row links and the resets neither read nor change it. -/

namespace Sys2Proof.Machine

open Sys2Proof

/-! ### Prediction -/

@[simp] theorem newEvaluation_withQueue (t : Target) (f : Frame) (s : State) (q : List Instr) :
    newEvaluation t f (s.withQueue q) = newEvaluation t f s := rfl

@[simp] theorem beginEvaluation_withQueue (t : Target) (f : Frame) (s : State) (q : List Instr) :
    beginEvaluation t f (s.withQueue q) = (beginEvaluation t f s).withQueue q := by
  simp [beginEvaluation]

@[simp] theorem nextReader_withQueue (s : State) (q : List Instr) :
    nextReader (s.withQueue q) = nextReader s := rfl

@[simp] theorem predictionRead_withQueue (s : State) (q : List Instr) :
    predictionRead (s.withQueue q) = (predictionRead s).withQueue q := by
  unfold predictionRead
  rw [hasReads_withQueue]
  simp [withQueue_ite]

@[simp] theorem findEvaluation_withQueue (t : Target) (s : State) (q : List Instr) :
    findEvaluation t (s.withQueue q) = findEvaluation t s := rfl

@[simp] theorem endInto_withQueue (e : Evaluation) (bank : BankName) (s : State) (q : List Instr) :
    endInto e bank (s.withQueue q) = (endInto e bank s).withQueue q := by
  unfold endInto
  simp only [getRing_withQueue, dropEvaluation_withQueue, setRing_withQueue]
  split <;> rfl

@[simp] theorem endOf_withQueue (e : Evaluation) (s : State) (q : List Instr) :
    endOf e (s.withQueue q) = (endOf e s).withQueue q := by
  unfold endOf
  split
  · exact endInto_withQueue ..
  · rfl

@[simp] theorem evaluationEnd_withQueue (t : Target) (s : State) (q : List Instr) :
    evaluationEnd t (s.withQueue q) = (evaluationEnd t s).withQueue q := by
  cases h : findEvaluation t s <;> simp [evaluationEnd, h]

@[simp] theorem canEnd_withQueue (t : Target) (s : State) (q : List Instr) :
    canEnd t (s.withQueue q) = canEnd t s := rfl

@[simp] theorem readThrough_withQueue (t : Target) (s : State) (q : List Instr) :
    readThrough t (s.withQueue q) = (readThrough t s).withQueue q := by
  simp [readThrough, withQueue_ite]

@[simp] theorem finishEvaluation_withQueue (t : Target) (s : State) (q : List Instr) :
    finishEvaluation t (s.withQueue q) = (finishEvaluation t s).withQueue q := by
  simp [finishEvaluation, withQueue_ite]

@[simp] theorem finishStationEvaluations_withQueue (s : State) (q : List Instr) :
    finishStationEvaluations (s.withQueue q) = (finishStationEvaluations s).withQueue q := by
  rw [finishStationEvaluations, foldl_withQueue fun k s q => finishEvaluation_withQueue _ s q,
    finishStationEvaluations]

/-! ### Adaptation -/

@[simp] theorem arrivalIgnored_withQueue (t : Target) (r : EvalRecord) (parkedStatus : Bool)
    (s : State) (q : List Instr) :
    arrivalIgnored t r parkedStatus (s.withQueue q) = arrivalIgnored t r parkedStatus s := rfl

@[simp] theorem openMoment_withQueue (m : OpenMoment) (s : State) (q : List Instr) :
    openMoment m (s.withQueue q) = (openMoment m s).withQueue q := rfl

@[simp] theorem queueStep_withQueue (st : Step) (s : State) (q : List Instr) :
    queueStep st (s.withQueue q) = (queueStep st s).withQueue q := by
  simp [queueStep, withQueue_ite]

@[simp] theorem setPostscaler_withQueue (t : Target) (n : Nat) (s : State) (q : List Instr) :
    setPostscaler t n (s.withQueue q) = (setPostscaler t n s).withQueue q := by
  simp [setPostscaler]

@[simp] theorem stepFor_withQueue (place : Nat) (t : Target) (residual : Int) (r : EvalRecord)
    (s : State) (q : List Instr) :
    stepFor place t residual r (s.withQueue q) = stepFor place t residual r s := rfl

@[simp] theorem countArrival_withQueue (place : Nat) (t : Target) (residual : Int)
    (r : EvalRecord) (s : State) (q : List Instr) :
    countArrival place t residual r (s.withQueue q) =
      (countArrival place t residual r s).withQueue q := by
  simp [countArrival, withQueue_ite]

@[simp] theorem arrival_withQueue (place : Nat) (t : Target) (residual : Int) (r : EvalRecord)
    (parkedStatus : Bool) (s : State) (q : List Instr) :
    arrival place t residual r parkedStatus (s.withQueue q) =
      (arrival place t residual r parkedStatus s).withQueue q := by
  simp [arrival, withQueue_ite]

@[simp] theorem setLastResidual_withQueue (t : Target) (residual : Int) (s : State)
    (q : List Instr) :
    setLastResidual t residual (s.withQueue q) = (setLastResidual t residual s).withQueue q := by
  simp [setLastResidual]

@[simp] theorem statusResidual_withQueue (slot : Slot) (residual : Int) (tag : Nat)
    (parkedStatus : Bool) (s : State) (q : List Instr) :
    statusResidual slot residual tag parkedStatus (s.withQueue q) =
      (statusResidual slot residual tag parkedStatus s).withQueue q := by
  unfold statusResidual
  simp only [setLastResidual_withQueue, getRing_withQueue]
  split <;> simp

@[simp] theorem stationMean_withQueue (k : Station) (f : Frame) (mean : Int) (s : State)
    (q : List Instr) :
    stationMean k f mean (s.withQueue q) = (stationMean k f mean s).withQueue q := by
  unfold stationMean
  simp only [setLastResidual_withQueue, getRing_withQueue, getStation_withQueue, withQueue_ite]
  split
  · split <;> simp [*]
  · rfl

@[simp] theorem cutSteps_withQueue (t : Target) (s : State) (q : List Instr) :
    cutSteps t (s.withQueue q) = (cutSteps t s).withQueue q := by
  simp [cutSteps]

@[simp] theorem divergenceEvent_withQueue (t : Target) (s : State) (q : List Instr) :
    divergenceEvent t (s.withQueue q) = (divergenceEvent t s).withQueue q := by
  simp [divergenceEvent, withQueue_ite]

@[simp] theorem reportUpdate_withQueue (st : Step) (rest : List Step) (more : List GainUpdate)
    (mark : Bool) (s : State) (q : List Instr) :
    reportUpdate st rest more mark (s.withQueue q) =
      (reportUpdate st rest more mark s).withQueue q := by
  cases more <;> simp [reportUpdate, withQueue_ite]

@[simp] theorem updateEnded_withQueue (s : State) (q : List Instr) :
    updateEnded (s.withQueue q) = (updateEnded s).withQueue q := rfl

@[simp] theorem gainUpdate_withQueue (s : State) (q : List Instr) :
    gainUpdate (s.withQueue q) = (gainUpdate s).withQueue q := by
  unfold gainUpdate
  rw [predictionWaits_withQueue, withQueue_ite, withQueue_adaptation]
  cases s.adaptation.steps with
  | nil => rfl
  | cons st rest => cases h : st.updates <;> simp [h]

@[simp] theorem settleEnd_withQueue (t : Target) (s : State) (q : List Instr) :
    settleEnd t (s.withQueue q) = (settleEnd t s).withQueue q := by
  unfold settleEnd
  rw [withQueue_boundary, getAdapt_withQueue, withQueue_ite]
  rfl

@[simp] theorem divergenceHoldEnd_withQueue (t : Target) (s : State) (q : List Instr) :
    divergenceHoldEnd t (s.withQueue q) = (divergenceHoldEnd t s).withQueue q := by
  unfold divergenceHoldEnd
  rw [withQueue_boundary, getAdapt_withQueue, withQueue_ite, withQueue_ite]
  rfl

@[simp] theorem targetReadResponse_withQueue (b : Byte) (s : State) (q : List Instr) :
    targetReadResponse b (s.withQueue q) = targetReadResponse b s := rfl

/-! ### Sensing stations -/

@[simp] theorem channelWord_withQueue (tag : BitVec 6) (value : Half) (s : State) (q : List Instr) :
    channelWord tag value (s.withQueue q) = (channelWord tag value s).withQueue q := by
  cases h : below 16 (tag.toNat / 2) <;> simp [channelWord, h, withQueue_ite]

@[simp] theorem watchers_withQueue (k : Station) (s : State) (q : List Instr) :
    watchers k (s.withQueue q) = watchers k s := rfl

@[simp] theorem shockSample_withQueue (k : Station) (s : State) (q : List Instr) :
    shockSample k (s.withQueue q) = (shockSample k s).withQueue q := by
  rw [shockSample, watchers_withQueue, withQueue_settings, modStation_withQueue,
    foldl_withQueue trigger_withQueue, shockSample]

@[simp] theorem takeResidual_withQueue (k : Station) (f : Frame) (r : Int) (s : State)
    (q : List Instr) :
    takeResidual k f r (s.withQueue q) = (takeResidual k f r s).withQueue q := by
  unfold takeResidual
  dsimp only
  rw [modStation_withQueue, getStation_withQueue, withQueue_ite]
  rfl

@[simp] theorem lockSample_withQueue (k : Station) (valid : Bool) (s : State) (q : List Instr) :
    lockSample k valid (s.withQueue q) = (lockSample k valid s).withQueue q := by
  simp [lockSample]

@[simp] theorem takeValues_withQueue (k : Station) (p : Int × Int) (s : State) (q : List Instr) :
    takeValues k p (s.withQueue q) = (takeValues k p s).withQueue q := by
  unfold takeValues
  dsimp only
  rw [stationSettings_withQueue, modStation_withQueue, stationSettings_withQueue,
    shockSample_withQueue, withQueue_ite]

@[simp] theorem takeMeasured_withQueue (k : Station) (t : Time) (p : Int × Int) (s : State)
    (q : List Instr) :
    takeMeasured k t p (s.withQueue q) = (takeMeasured k t p s).withQueue q := by
  cases h : matchFrame (frameOf t) (getRing (stationTarget k) s) <;> simp [takeMeasured, h]

@[simp] theorem takeSample_withQueue (k : Station) (t : Time) (s : State) (q : List Instr) :
    takeSample k t (s.withQueue q) = (takeSample k t s).withQueue q := by
  cases h : (getStation k s).pair <;> simp [takeSample, h, withQueue_ite]

@[simp] theorem offerSweep_withQueue (t : Time) (k : Station) (s : State) (q : List Instr) :
    offerSweep t (s.withQueue q) k = (offerSweep t s k).withQueue q := by
  cases h : (getStation k s).account (frameOf t) <;> simp [offerSweep, h, withQueue_ite]

@[simp] theorem clearPairing_withQueue (s : State) (q : List Instr) :
    clearPairing (s.withQueue q) = (clearPairing s).withQueue q := rfl

@[simp] theorem sweep_withQueue (t : Time) (s : State) (q : List Instr) :
    sweep t (s.withQueue q) = (sweep t s).withQueue q := by
  unfold sweep
  rw [foldl_withQueue fun k s q => offerSweep_withQueue t k s q, withQueue_now, withQueue_ite,
    withQueue_ite]
  rfl

@[simp] theorem closeSweep_withQueue (stamp : Half) (s : State) (q : List Instr) :
    closeSweep stamp (s.withQueue q) = (closeSweep stamp s).withQueue q := by
  simp [closeSweep]

@[simp] theorem discardedWord_withQueue (s : State) (q : List Instr) :
    discardedWord (s.withQueue q) = (discardedWord s).withQueue q := by
  simp [discardedWord]

@[simp] theorem lockMisses_withQueue (k : Station) (m : Nat) (s : State) (q : List Instr) :
    lockMisses k m (s.withQueue q) = (lockMisses k m s).withQueue q := by
  induction m generalizing s with
  | zero => rfl
  | succ m ih => rw [lockMisses, lockSample_withQueue, ih, lockMisses]

@[simp] theorem closeMean_withQueue (k : Station) (s : State) (q : List Instr) :
    closeMean k (s.withQueue q) = (closeMean k s).withQueue q := by
  simp [closeMean, withQueue_ite]

@[simp] theorem closeMissing_withQueue (k : Station) (a : Account) (s : State) (q : List Instr) :
    closeMissing k a (s.withQueue q) = (closeMissing k a s).withQueue q := by
  simp [closeMissing, withQueue_ite]

@[simp] theorem closeFrame_withQueue (k : Station) (g : Frame) (s : State) (q : List Instr) :
    closeFrame k g (s.withQueue q) = (closeFrame k g s).withQueue q := by
  simp [closeFrame]

@[simp] theorem shockHoldEnd_withQueue (k : Station) (s : State) (q : List Instr) :
    shockHoldEnd k (s.withQueue q) = (shockHoldEnd k s).withQueue q := by
  unfold shockHoldEnd
  rw [withQueue_boundary, getStation_withQueue, withQueue_ite, withQueue_ite]
  rfl

@[simp] theorem forceLock_withQueue (a : ForceArgs) (s : State) (q : List Instr) :
    forceLock a (s.withQueue q) = (forceLock a s).withQueue q := by
  unfold forceLock
  split <;> simp

@[simp] theorem stationReadResponse_withQueue (b : Byte) (s : State) (q : List Instr) :
    stationReadResponse b (s.withQueue q) = stationReadResponse b s := rfl

/-! ### Shock suppression -/

@[simp] theorem holdExpiry_withQueue (slot : Slot) (s : State) (q : List Instr) :
    holdExpiry slot (s.withQueue q) = (holdExpiry slot s).withQueue q := by
  unfold holdExpiry
  rw [withQueue_boundary, getSuppression_withQueue, withQueue_ite, withQueue_ite]
  rfl

@[simp] theorem suppressionResponse_withQueue (slot : Slot) (s : State) (q : List Instr) :
    suppressionResponse slot (s.withQueue q) = suppressionResponse slot s := rfl

@[simp] theorem suppressClear_withQueue (b : Byte) (s : State) (q : List Instr) :
    suppressClear b (s.withQueue q) = (suppressClear b s).withQueue q := by
  cases h : slotOf b <;> simp [suppressClear, h]

@[simp] theorem shortenAll_withQueue (s : State) (q : List Instr) :
    shortenAll (s.withQueue q) = (shortenAll s).withQueue q := rfl

@[simp] theorem holdShorten_withQueue (b : Byte) (s : State) (q : List Instr) :
    holdShorten b (s.withQueue q) = (holdShorten b s).withQueue q := by
  cases h : slotOf b <;> simp [holdShorten, h, withQueue_ite]

/-! ### The passing of chassis time -/

@[simp] theorem takeSwap_withQueue (s : State) (q : List Instr) :
    takeSwap (s.withQueue q) = (takeSwap s).withQueue q := by
  unfold takeSwap
  rw [withQueue_store, withQueue_ite]
  rfl

@[simp] theorem stationCycle_withQueue (g : Frame) (k : Station) (s : State) (q : List Instr) :
    stationCycle g (s.withQueue q) k = (stationCycle g s k).withQueue q := by
  simp [stationCycle]

@[simp] theorem lowerStepMayCome_withQueue (g : Frame) (s : State) (q : List Instr) :
    lowerStepMayCome g (s.withQueue q) = lowerStepMayCome g s := rfl

@[simp] theorem boundaryUpdate_withQueue (g : Frame) (s : State) (q : List Instr) :
    boundaryUpdate g (s.withQueue q) = (boundaryUpdate g s).withQueue q := by
  simp [boundaryUpdate, withQueue_ite]

@[simp] theorem boundaryAct_withQueue (g : Frame) (s : State) (q : List Instr) (a : BoundaryAct) :
    boundaryAct g (s.withQueue q) a = (boundaryAct g s a).withQueue q := by
  cases a with
  | cycle k => exact stationCycle_withQueue ..
  | predictionRead => exact predictionRead_withQueue ..
  | gainUpdate => exact boundaryUpdate_withQueue ..

@[simp] theorem openFrame_withQueue (s : State) (q : List Instr) :
    openFrame (s.withQueue q) = (openFrame s).withQueue q := rfl

@[simp] theorem takeFrameBoundary_withQueue (acts : List BoundaryAct) (s : State) (q : List Instr) :
    takeFrameBoundary acts (s.withQueue q) = (takeFrameBoundary acts s).withQueue q := by
  have hlower : lowerCounts { s.withQueue q with boundary := .taken } =
      (lowerCounts { s with boundary := .taken }).withQueue q := rfl
  unfold takeFrameBoundary
  dsimp only
  rw [hlower, foldl_withQueue fun a s q => boundaryAct_withQueue _ s q a, takeSwap_withQueue,
    foldl_withQueue fun k s q => stationCycle_withQueue _ k s q, openFrame_withQueue, withQueue_now]

@[simp] theorem frameBoundary_withQueue (acts : List BoundaryAct) (s : State) (q : List Instr) :
    frameBoundary acts (s.withQueue q) = (frameBoundary acts s).withQueue q := by
  cases h : s.boundary <;> simp [frameBoundary, h]

@[simp] theorem takeFalls_withQueue (s : State) (q : List Instr) :
    takeFalls (s.withQueue q) = (takeFalls s).withQueue q := by
  unfold takeFalls
  dsimp only
  rw [foldl_withQueue fun t => KeepsQueue.comp (divergenceHoldEnd_withQueue t)
    (settleEnd_withQueue t),
    foldl_withQueue shockHoldEnd_withQueue, foldl_withQueue holdExpiry_withQueue]
  generalize List.foldl _ _ _ = t
  rfl

@[simp] theorem takeBoundary_withQueue (s : State) (q : List Instr) :
    takeBoundary (s.withQueue q) = (takeBoundary s).withQueue q := by
  cases h : s.boundary <;> simp [takeBoundary, h]

@[simp] theorem takeDue_withQueue (s : State) (q : List Instr) :
    takeDue (s.withQueue q) = (takeDue s).withQueue q := by
  simp [takeDue]

@[simp] theorem takeDueFor_withQueue (id : ProfileId) (s : State) (q : List Instr) :
    takeDueFor id (s.withQueue q) = (takeDueFor id s).withQueue q := by
  simp [takeDueFor]

@[simp] theorem advance_withQueue (s : State) (q : List Instr) :
    advance (s.withQueue q) = (advance s).withQueue q := by
  unfold advance
  rw [withQueue_now, withQueue_ite]
  rfl

/-! ### The row links -/

@[simp] theorem setFeedPhase_withQueue (slot : Slot) (m : Option Answer) (b : PendingBlock)
    (s : State) (q : List Instr) :
    setFeedPhase slot m b (s.withQueue q) = (setFeedPhase slot m b s).withQueue q := by
  simp [setFeedPhase]

@[simp] theorem beginSlotEvaluation_withQueue (slot : Slot) (m : Option Answer) (s : State)
    (q : List Instr) :
    beginSlotEvaluation slot m (s.withQueue q) = (beginSlotEvaluation slot m s).withQueue q := by
  cases h : (getLink slot s).effective <;> simp [beginSlotEvaluation, h]

@[simp] theorem upstreamPhaseEnd_withQueue (slot : Slot) (s : State) (q : List Instr) :
    upstreamPhaseEnd slot (s.withQueue q) = (upstreamPhaseEnd slot s).withQueue q := by
  cases h : (getLink slot s).window <;> simp [upstreamPhaseEnd, h]

@[simp] theorem feedOf_withQueue (m : Option Answer) (b : Block) (s : State) (q : List Instr) :
    feedOf m b (s.withQueue q) = feedOf m b s := rfl

@[simp] theorem latchClipped_withQueue (b : Block) (s : State) (q : List Instr) :
    latchClipped b (s.withQueue q) = (latchClipped b s).withQueue q := by
  simp [latchClipped, withQueue_ite]

@[simp] theorem sendFeed_withQueue (slot : Slot) (m : Option Answer) (b : Block) (s : State)
    (q : List Instr) :
    sendFeed slot m b (s.withQueue q) = (sendFeed slot m b s).withQueue q := by
  simp [sendFeed]

@[simp] theorem sendReady_withQueue (slot : Slot) (s : State) (q : List Instr) :
    sendReady slot (s.withQueue q) = (sendReady slot s).withQueue q := by
  unfold sendReady
  rw [getLink_withQueue]
  split <;> simp

@[simp] theorem endPhase_withQueue (slot : Slot) (s : State) (q : List Instr) :
    endPhase slot (s.withQueue q) = (endPhase slot s).withQueue q := by
  simp [endPhase, withQueue_ite]

@[simp] theorem endPhases_withQueue (w : Nat) (s : State) (q : List Instr) :
    endPhases w (s.withQueue q) = (endPhases w s).withQueue q := by
  rw [endPhases, foldl_withQueue endPhase_withQueue, endPhases]

@[simp] theorem beginTurnaround_withQueue (t : Target) (s : State) (q : List Instr) :
    beginTurnaround t (s.withQueue q) = (beginTurnaround t s).withQueue q := by
  cases h : slotOfTarget t <;> simp [beginTurnaround, h, withQueue_ite]

@[simp] theorem readInTurnaround_withQueue (s : State) (q : List Instr) :
    readInTurnaround (s.withQueue q) = (readInTurnaround s).withQueue q := by
  cases h : nextReader s <;> simp [readInTurnaround, h]

@[simp] theorem endInTurnaround_withQueue (t : Target) (s : State) (q : List Instr) :
    endInTurnaround t (s.withQueue q) = (endInTurnaround t s).withQueue q := by
  simp [endInTurnaround, withQueue_ite]

@[simp] theorem endSlotEvaluation_withQueue (slot : Slot) (s : State) (q : List Instr) :
    endSlotEvaluation slot (s.withQueue q) = (endSlotEvaluation slot s).withQueue q := by
  simp [endSlotEvaluation, withQueue_ite]

@[simp] theorem endEvaluations_withQueue (w : Nat) (s : State) (q : List Instr) :
    endEvaluations w (s.withQueue q) = (endEvaluations w s).withQueue q := by
  rw [endEvaluations, foldl_withQueue endSlotEvaluation_withQueue, endEvaluations]

@[simp] theorem openFeedPhases_withQueue (w : Nat) (s : State) (q : List Instr) :
    openFeedPhases w (s.withQueue q) = (openFeedPhases w s).withQueue q := by
  simp [openFeedPhases]

@[simp] theorem sendFeeds_withQueue (w : Nat) (s : State) (q : List Instr) :
    sendFeeds w (s.withQueue q) = (sendFeeds w s).withQueue q := by
  rw [sendFeeds, foldl_withQueue sendReady_withQueue, sendFeeds]

@[simp] theorem runWindow_withQueue (w : Nat) (s : State) (q : List Instr) :
    runWindow w (s.withQueue q) = (runWindow w s).withQueue q := by
  simp [runWindow]

@[simp] theorem runWindows_withQueue (w : Nat) (s : State) (q : List Instr) :
    runWindows w (s.withQueue q) = (runWindows w s).withQueue q := by
  induction w with
  | zero => rfl
  | succ w ih => rw [runWindows, ih, runWindow_withQueue, runWindows]

@[simp] theorem placeCome_withQueue (p : Place) (slot : Slot) (s : State) (q : List Instr) :
    placeCome p slot (s.withQueue q) = placeCome p slot s := rfl

theorem inPlace_withQueue {f : State → State} (hf : KeepsQueue f) (p : Place) (slot : Slot) :
    KeepsQueue (inPlace p slot f) := by
  intro s q
  rw [inPlace, placeCome_withQueue, runWindows_withQueue, hf, inPlace, withQueue_ite]

@[simp] theorem setAnswer_withQueue (slot : Slot) (a : Answer) (s : State) (q : List Instr) :
    setAnswer slot a (s.withQueue q) = (setAnswer slot a s).withQueue q := by
  simp [setAnswer]

@[simp] theorem phaseOpen_withQueue (slot : Slot) (s : State) (q : List Instr) :
    phaseOpen slot (s.withQueue q) = phaseOpen slot s := rfl

theorem inWindow_withQueue {f : State → State} (hf : KeepsQueue f) (slot : Slot) :
    KeepsQueue (inWindow slot f) := by
  intro s q
  rw [inWindow, phaseOpen_withQueue, getLink_withQueue, hf, inWindow, withQueue_ite]

theorem handToTable_withQueue {f : State → Reply × State}
    (hf : ∀ s q, f (s.withQueue q) = withQueueAnswer q (f s)) (slot : Slot) (tag : Tag) :
    KeepsQueue (handToTable slot tag f) := by
  intro s q
  rw [handToTable, answerIfPresent_withQueue hf]
  rfl

@[simp] theorem discardMessage_withQueue (slot : Slot) (s : State) (q : List Instr) :
    discardMessage slot (s.withQueue q) = (discardMessage slot s).withQueue q := by
  simp [discardMessage]

@[simp] theorem takeNotice_withQueue (slot : Slot) (m : NoticeFields) (s : State) (q : List Instr) :
    takeNotice slot m (s.withQueue q) = (takeNotice slot m s).withQueue q := by
  unfold takeNotice
  rw [handToTable_withQueue (noticePresent_withQueue slot m), discardMessage_withQueue,
    withQueue_ite]

@[simp] theorem setDrive_withQueue (slot : Slot) (d : DriveState) (s : State) (q : List Instr) :
    setDrive slot d (s.withQueue q) = (setDrive slot d s).withQueue q := by
  simp [setDrive]

@[simp] theorem statusShock_withQueue (slot : Slot) (shock : Bool) (s : State) (q : List Instr) :
    statusShock slot shock (s.withQueue q) = (statusShock slot shock s).withQueue q := by
  simp [statusShock, withQueue_ite]

@[simp] theorem statusHandResidual_withQueue (slot : Slot) (m : StatusFields) (s : State)
    (q : List Instr) :
    statusHandResidual slot m (s.withQueue q) = (statusHandResidual slot m s).withQueue q := by
  cases h : (getLink slot s).effective <;> simp [statusHandResidual, h]

@[simp] theorem takeStatus_withQueue (slot : Slot) (m : StatusFields) (s : State) (q : List Instr) :
    takeStatus slot m (s.withQueue q) = (takeStatus slot m s).withQueue q := by
  simp [takeStatus]

@[simp] theorem presenceResponse_withQueue (slot : Slot) (s : State) (q : List Instr) :
    presenceResponse slot (s.withQueue q) = presenceResponse slot s := rfl

@[simp] theorem forcePresence_withQueue (a : ForceArgs) (s : State) (q : List Instr) :
    forcePresence a (s.withQueue q) = (forcePresence a s).withQueue q := by
  unfold forcePresence
  split <;> simp

@[simp] theorem periodPhases_withQueue (i : Nat) (w : Nat) (s : State) (q : List Instr) :
    periodPhases i w (s.withQueue q) = (periodPhases i w s).withQueue q := by
  simp [periodPhases, withQueue_ite]

@[simp] theorem periodWindows_withQueue (i : Nat) (s : State) (q : List Instr) :
    periodWindows i (s.withQueue q) = (periodWindows i s).withQueue q := by
  simp [periodWindows]

@[simp] theorem chassisTimeAdvance_withQueue (s : State) (q : List Instr) :
    chassisTimeAdvance (s.withQueue q) = (chassisTimeAdvance s).withQueue q := by
  simp [chassisTimeAdvance]

/-! ### Resets -/

@[simp] theorem warmReset_withQueue (cause : ResetCause) (s : State) (q : List Instr) :
    warmReset cause (s.withQueue q) = (warmReset cause s).withQueue q := by
  unfold warmReset
  dsimp only
  rw [takeBoundary_withQueue]
  generalize takeBoundary s = t
  rfl

@[simp] theorem coldReset_withQueue (cause : ResetCause) (s : State) (q : List Instr) :
    coldReset cause (s.withQueue q) = (coldReset cause s).withQueue q := rfl

end Sys2Proof.Machine
end

section
/-! PROOF. Every command answers a next state, and neither reads nor changes the queue of commands
that wait. -/

namespace Sys2Proof.Machine

open Sys2Proof

/-! ### Commands -/

/-- A command answers a next state, and neither reads nor changes the queue. -/
def Completes (e : State → Host.Outcome State Fault Refusal) : Prop :=
  ∀ s, ∃ t, e s = .next t ∧ ∀ q, e (s.withQueue q) = .next (t.withQueue q)

section

variable {f held before : State → State} {p : Place} {slot : Slot}

theorem completes_onPart (hheld : KeepsQueue held) (hf : KeepsQueue f) :
    Completes (onPart held f) := by
  intro s
  have hcold : ∀ q, (s.withQueue q).coldReset = s.coldReset := fun _ => rfl
  unfold onPart
  simp only [hcold]
  rcases s.coldReset with _ | cause
  · exact ⟨f s, rfl, fun q => congrArg _ (hf s q)⟩
  · cases cause
    case restartCold =>
      refine ⟨f (endColdReset s), rfl, fun q => ?_⟩
      dsimp only
      rw [endColdReset_withQueue, hf]
    all_goals exact ⟨held s, rfl, fun q => congrArg _ (hheld s q)⟩

theorem completes_running (hf : KeepsQueue f) : Completes (running f) :=
  completes_onPart (fun _ _ => rfl) hf

theorem completes_afterEvents (hf : KeepsQueue f) : Completes (afterEvents f) :=
  completes_running (hf.comp takeMoment_withQueue)

theorem completes_inTurn (hf : KeepsQueue f) : Completes (inTurn p slot f) :=
  completes_running ((inPlace_withQueue hf p slot).comp takeDue_withQueue)

theorem completes_message (hf : KeepsQueue f) : Completes (message slot f) :=
  completes_inTurn (inWindow_withQueue hf slot)

theorem completes_manageAfter {α : Type} {f : α → State → State} (hbefore : KeepsQueue before)
    (hf : ∀ a, KeepsQueue (f a)) (p : Payload α) : Completes (manageAfter before p f) :=
  completes_onPart endTransaction_withQueue ((takeFrame_withQueue hf p).comp hbefore)

theorem completes_manage {α : Type} {f : α → State → State} (hf : ∀ a, KeepsQueue (f a))
    (p : Payload α) : Completes (manage p f) :=
  completes_manageAfter takeMoment_withQueue hf p

/-- A read answers what the state holds besides its queue. -/
theorem respond_keepsQueue {answer : State → Response}
    (h : ∀ s q, answer (s.withQueue q) = answer s) : KeepsQueue fun s => respond (answer s) s :=
  fun s q => by
    dsimp only
    rw [h, respond_withQueue]

end

theorem completes_exec (c : Instr) : Completes (exec c) := by
  cases c with
  | chassisTimeAdvance => exact completes_running chassisTimeAdvance_withQueue
  | frameBoundary acts => exact completes_afterEvents (frameBoundary_withQueue acts)
  | settleEnd t => exact completes_afterEvents (settleEnd_withQueue t)
  | divergenceHoldEnd t => exact completes_afterEvents (divergenceHoldEnd_withQueue t)
  | shockHoldEnd k => exact completes_afterEvents (shockHoldEnd_withQueue k)
  | holdExpiry slot => exact completes_afterEvents (holdExpiry_withQueue slot)
  | recordStartReached r => exact completes_running (recordStart_withQueue r)
  | recordEndReached r => exact completes_running (recordEnd_withQueue r)
  | retirement r => exact completes_running (recordRetirement_withQueue r)
  | notice slot m =>
    exact completes_running ((inPlace_withQueue (inWindow_withQueue (takeNotice_withQueue slot m)
      slot) .message slot).comp (takeDueFor_withQueue m.profile))
  | amend slot m =>
    refine completes_message fun s q => ?_
    rw [handToTable_withQueue (amendPresent_withQueue slot m), discardMessage_withQueue,
      withQueue_ite]
  | withdraw slot tag =>
    exact completes_message (handToTable_withQueue (withdrawPresent_withQueue slot tag) slot tag)
  | close slot tag stamp =>
    exact completes_message (handToTable_withQueue (closePresent_withQueue slot tag stamp) slot tag)
  | status slot m => exact completes_message (takeStatus_withQueue slot m)
  | malformedMessage slot => exact completes_message (discardMessage_withQueue slot)
  | upstreamPhaseEnd slot => exact completes_inTurn (upstreamPhaseEnd_withQueue slot)
  | predictionListRead => exact completes_afterEvents readInTurnaround_withQueue
  | evaluationEnd t => exact completes_afterEvents (endInTurnaround_withQueue t)
  | feed slot =>
    exact completes_inTurn (KeepsQueue.comp (sendReady_withQueue slot)
      (openFeedPhases_withQueue (position slot)))
  | gainUpdate => exact completes_afterEvents gainUpdate_withQueue
  | channelWord tag value => exact completes_afterEvents (channelWord_withQueue tag value)
  | sweepEnd stamp =>
    refine completes_afterEvents (f := fun s => closeSweep stamp (takeBoundary s)) ?_
    exact KeepsQueue.comp (closeSweep_withQueue stamp) takeBoundary_withQueue
  | discardedWord => exact completes_afterEvents discardedWord_withQueue
  | fetchStart => exact completes_afterEvents fetchStart_withQueue
  | fetchCompleteGood samples => exact completes_afterEvents (fetchCompleteGood_withQueue samples)
  | fetchCompleteBad => exact completes_afterEvents fetchCompleteBad_withQueue
  | identify p => exact completes_manage (fun _ => respond_keepsQueue fun _ _ => rfl) p
  | readFlags p => exact completes_manage (fun _ => readFlags_withQueue) p
  | setAlertMask p => exact completes_manage setAlertMask_withQueue p
  | settingWrite p => exact completes_manage settingWrite_withQueue p
  | settingRead p => exact completes_manage settingRead_withQueue p
  | listWrite p => exact completes_manage listWrite_withQueue p
  | listWriteGrant => exact completes_afterEvents listWriteGrant_withQueue
  | listRead p => exact completes_manage listRead_withQueue p
  | listReadGrant => exact completes_afterEvents listReadGrant_withQueue
  | capture p => exact completes_manage (fun _ => capture_withQueue) p
  | captureEmptyGrant => exact completes_afterEvents captureEmptyGrant_withQueue
  | captureCopyGrant => exact completes_afterEvents captureCopyGrant_withQueue
  | swapRequest p => exact completes_manage (fun _ => swapRequest_withQueue) p
  | swapCancel p => exact completes_manage (fun _ => swapCancel_withQueue) p
  | sourceQuery p =>
    exact completes_manage (fun a => respond_keepsQueue (sourceQueryResponse_withQueue a)) p
  | sourceList p => exact completes_manage sourceList_withQueue p
  | sourceListGrant => exact completes_afterEvents sourceListGrant_withQueue
  | targetRead p =>
    exact completes_manage (fun b => respond_keepsQueue (targetReadResponse_withQueue b)) p
  | stationRead p =>
    exact completes_manage (fun b => respond_keepsQueue (stationReadResponse_withQueue b)) p
  | cacheRead p => exact completes_manage (fun _ => respond_keepsQueue fun _ _ => rfl) p
  | preload p => exact completes_manage (withProfile_withQueue preloadId_withQueue) p
  | retry p => exact completes_manage (withProfile_withQueue retryId_withQueue) p
  | drop p =>
    exact completes_manageAfter (beforeDrop_withQueue p) (withProfile_withQueue dropId_withQueue) p
  | lend p => exact completes_manage (fun _ => lendPort_withQueue) p
  | reclaim p => exact completes_manage (fun _ => reclaimPort_withQueue) p
  | forcePresence p => exact completes_manage forcePresence_withQueue p
  | forceLock p => exact completes_manage forceLock_withQueue p
  | suppressClear p => exact completes_manage suppressClear_withQueue p
  | holdShorten p => exact completes_manage holdShorten_withQueue p
  | restartWarm p =>
    exact completes_manage (fun _ => KeepsQueue.comp (warmReset_withQueue .restartWarm)
      (respond_withQueue okResponse)) p
  | restartCold p => exact completes_manage (fun _ => coldReset_withQueue .restartCold) p
  | unknownCommand code =>
    refine completes_onPart (fun s q => ?_)
      (KeepsQueue.comp (unknownCommand_withQueue code) takeMoment_withQueue)
    rw [endTransaction_withQueue, withQueue_ite]
  | warmLine => exact completes_afterEvents (warmReset_withQueue .warmLine)
  | resetLine => exact fun s => ⟨_, rfl, fun q => rfl⟩
  | powerUp => exact fun s => ⟨_, rfl, fun q => rfl⟩
  | coldResetEnd =>
    refine fun s => ⟨_, rfl, fun q => ?_⟩
    show Host.Outcome.next _ = _
    rw [withQueue_coldReset, endColdReset_withQueue, withQueue_ite]
  | transactionStart =>
    exact completes_onPart untakenStart_withQueue
      (KeepsQueue.comp transactionStart_withQueue takeMoment_withQueue)

/-- Settles O2: what a command does commutes with any queue, so with the state's own. -/
theorem everyCommandCompletesAndLeavesTheQueue :
    Obligations.EveryCommandCompletesAndLeavesTheQueue := by
  unfold Obligations.EveryCommandCompletesAndLeavesTheQueue
  intro c s
  obtain ⟨t, ht, hqueue⟩ := completes_exec c s
  have hown : t = t.withQueue s.pending :=
    Host.Outcome.next.inj (ht.symm.trans (hqueue s.pending))
  have hpending : t.pending = (t.withQueue s.pending).pending := congrArg State.pending hown
  exact ⟨t, ht, hpending, hqueue⟩

end Sys2Proof.Machine
end
